-- ==== Sys2Proof/Word.lean ====
section
/-! DEFINITION. Word.lean: the byte, the command word and the pixel record (rules R12, R21, R96). -/

namespace Sys2Proof

/-- Rule R12: a channel value, a frame byte and every field of a pixel is an unsigned 8-bit value. -/
abbrev Byte := BitVec 8

/-- Rule R96: a command is presented as one 64-bit word, bit 63 the most significant. -/
abbrev CommandWord := BitVec 64

/-- Rule R21: a pixel is a record of four independent unsigned 8-bit fields, whatever `CH` is.
It has no packed view and no byte order (rules R55, R276). -/
structure Pixel where
  R : Byte
  G : Byte
  B : Byte
  W : Byte
  deriving DecidableEq, Repr, Inhabited

/-- The pixel that START, CLEAR, TERMINATE and the fatal sequence write (rules R114, R200, R204, R231). -/
def Pixel.zero : Pixel := ⟨0, 0, 0, 0⟩

end Sys2Proof
end

