-- ==== Sys2Proof/Syntax.lean ====
section
/-! DEFINITION. Syntax.lean: the five host commands (rule R95, spec/opcode_table.json). -/

namespace Sys2Proof

/-- The commands a host can issue (rule R95).
The pixel index is a natural number (rule R50: its width is not fixed by the source); only the
command word limits it to 24 bits, which `WellFormed` states. -/
inductive Instr where
  /-- START, rule R200. -/
  | start
  /-- SETPIXEL, rule R110; operands in the source's argument order (rules R98, R100). -/
  | setPixel (idx : Nat) (r g b w : Byte)
  /-- CLEAR, rule R114. -/
  | clear
  /-- REFRESH, rule R158. -/
  | refresh
  /-- TERMINATE, rule R204. -/
  | terminate
  deriving DecidableEq, Repr

/-- The pseudo-form `setPixel(index, R, G, B)` stands for SETPIXEL with `w = 0` (rule R100). -/
def Instr.setPixelWithoutW (idx : Nat) (r g b : Byte) : Instr := .setPixel idx r g b 0

end Sys2Proof
end

