-- ==== Sys2Proof/WellFormed.lean ====
section
/-! DEFINITION. WellFormed.lean: which abstract commands the command word can carry (rules R96, R98). -/

namespace Sys2Proof

/-- The number of indices the 24-bit `idx` field can carry (rule R96). -/
def indexLimit : Nat := 2 ^ 24

/-- A SETPIXEL is expressible as a command word when its index fits the `idx` field, 0 to 2^24 - 1
(rule R96); the commands without operands always are. -/
def Instr.wellFormed : Instr → Bool
  | .start => true
  | .setPixel idx _ _ _ _ => decide (idx < indexLimit)
  | .clear => true
  | .refresh => true
  | .terminate => true

/-- `Instr.wellFormed` as a proposition. -/
abbrev WellFormed (i : Instr) : Prop := i.wellFormed = true

end Sys2Proof
end

