-- ==== Sys2Proof/Decode.lean ====
section
/-! DEFINITION. Decode.lean: the command word's decoder and encoder (rules R96 to R99). -/

namespace Sys2Proof

/-- Rule R96, bits 63:56. -/
def opField (x : CommandWord) : Byte := x.extractLsb' 56 8
/-- Rule R96, bits 55:32. -/
def idxField (x : CommandWord) : BitVec 24 := x.extractLsb' 32 24
/-- Rule R96, bits 31:24. -/
def rField (x : CommandWord) : Byte := x.extractLsb' 24 8
/-- Rule R96, bits 23:16. -/
def gField (x : CommandWord) : Byte := x.extractLsb' 16 8
/-- Rule R96, bits 15:8. -/
def bField (x : CommandWord) : Byte := x.extractLsb' 8 8
/-- Rule R96, bits 7:0. -/
def wField (x : CommandWord) : Byte := x.extractLsb' 0 8
/-- Rule R99, bits 55:0: reserved, and zero in the commands without operands. -/
def reservedField (x : CommandWord) : BitVec 56 := x.extractLsb' 0 56

/-- Why a word is illegal (rule R99). -/
inductive DecodeError where
  /-- `op` is `0x00` or `0x06` to `0xFF`. -/
  | unknownOperation (op : Byte)
  /-- a command without operands has a 1 among bits 55:0. -/
  | reservedBitSet (op : Byte)
  deriving DecidableEq, Repr

/-- A command without operands is legal only if bits 55:0 are zero (rule R99). -/
def withoutOperands (i : Instr) (x : CommandWord) : Except DecodeError Instr :=
  if reservedField x = 0 then .ok i else .error (.reservedBitSet (opField x))

/-- The decoder (rules R97 to R99). It is total: every word is one of the five commands or illegal. -/
def decode (x : CommandWord) : Except DecodeError Instr :=
  if opField x = 0x01 then withoutOperands .start x
  else if opField x = 0x02 then
    .ok (.setPixel (idxField x).toNat (rField x) (gField x) (bField x) (wField x))
  else if opField x = 0x03 then withoutOperands .clear x
  else if opField x = 0x04 then withoutOperands .refresh x
  else if opField x = 0x05 then withoutOperands .terminate x
  else .error (.unknownOperation (opField x))

/-- The six fields of rule R96, most significant first. -/
def commandWord (op : Byte) (idx : BitVec 24) (r g b w : Byte) : CommandWord :=
  op ++ idx ++ r ++ g ++ b ++ w

/-- The encoder (rules R97, R98). -/
def encode : Instr → CommandWord
  | .start => commandWord 0x01 0 0 0 0 0
  | .setPixel idx r g b w => commandWord 0x02 (BitVec.ofNat 24 idx) r g b w
  | .clear => commandWord 0x03 0 0 0 0 0
  | .refresh => commandWord 0x04 0 0 0 0 0
  | .terminate => commandWord 0x05 0 0 0 0 0

/-- One row of the table of rule R97: a word `x` selects the row whose `x AND mask = match`. -/
structure OpcodeRow where
  mnemonic : String
  matchBits : CommandWord
  mask : CommandWord
  deriving DecidableEq, Repr

/-- Does the word select the row (rule R97)? -/
def OpcodeRow.selects (row : OpcodeRow) (x : CommandWord) : Bool := x &&& row.mask == row.matchBits

/-- The table of rule R97. -/
def opcodeRows : List OpcodeRow :=
  [⟨"START", 0x0100000000000000, 0xFFFFFFFFFFFFFFFF⟩,
   ⟨"SETPIXEL", 0x0200000000000000, 0xFF00000000000000⟩,
   ⟨"CLEAR", 0x0300000000000000, 0xFFFFFFFFFFFFFFFF⟩,
   ⟨"REFRESH", 0x0400000000000000, 0xFFFFFFFFFFFFFFFF⟩,
   ⟨"TERMINATE", 0x0500000000000000, 0xFFFFFFFFFFFFFFFF⟩]

/-- The mnemonic of a command (rule R97). -/
def Instr.mnemonic : Instr → String
  | .start => "START"
  | .setPixel _ _ _ _ _ => "SETPIXEL"
  | .clear => "CLEAR"
  | .refresh => "REFRESH"
  | .terminate => "TERMINATE"

/-- The 64-bit word whose low `nbits` bits are those of `w` and whose other bits are 0. -/
def tableWord (nbits w : Nat) : CommandWord := BitVec.ofNat 64 (w % 2 ^ nbits)

/-- The instruction the decoder reads from a row's bits, numbered as spec/opcode_table.json numbers
them: the word is one 64-bit unit, so bit k of the table is bit k of the word. -/
def decodeTableWord (nbits w : Nat) : Option Instr :=
  match decode (tableWord nbits w) with
  | .ok i => some i
  | .error _ => none

end Sys2Proof
end

