-- ==== Sys2Proof/Config.lean ====
section
/-! DEFINITION. Config.lean: the parameters of an instance (rules R6 to R11, R232), the ways a bus
ends a transfer (rule R176), and the free values (rule R15's draws): constants with no body. -/

namespace Sys2Proof

/-- Rule R7: the number of channels transmitted per pixel is 3 or 4. -/
inductive Channels where
  | three
  | four
  deriving DecidableEq, Repr, Inhabited

/-- Rule R232: the legal values of `FATAL_CLEANUP_TX`. -/
inductive CleanupPolicy where
  | attempt
  | skip
  | either
  deriving DecidableEq, Repr, Inhabited

/-- A positive real number, the type of `F_BUS` and `T_RESET` (rules R8 to R10). -/
abbrev PosReal := {x : ℝ // 0 < x}

/-- The two quantities of an instance that timing claims speak of (rules R8, R9). -/
structure BusTiming where
  /-- `F_BUS`, the bus clock rate in bits per second. -/
  busClock : PosReal
  /-- `T_RESET`, the strip's minimum idle time in seconds. -/
  resetTime : PosReal

/-- The constants of one instance of the block (rules R6 to R11). No step changes them (rule R20). -/
structure Params where
  /-- `N - 1`, the largest pixel index: 24 bits hold exactly the legal `1 <= N <= 2^24` (rule R6). -/
  lastIndex : BitVec 24
  /-- `CH` (rule R7). -/
  channels : Channels
  /-- `PAD`, the reset padding in bytes; every natural number is legal (rule R8). -/
  pad : Nat
  /-- which `F_BUS` the instance has (rule R9): its value is `Config.clockRate` of this name, since a
  state of plain data holds no real number (assumption log entry 6); only timing reads it. -/
  busClock : Nat
  /-- `MODE`, the bus transfer mode, an uninterpreted token (rule R9). -/
  busMode : Nat
  /-- which `T_RESET` the instance has (rule R8): its value is `Config.resetInterval` of this name
  (assumption log entry 6); only timing reads it. -/
  resetTime : Nat
  /-- `FATAL_CLEANUP_TX` (rules R11, R232). -/
  cleanup : CleanupPolicy
  deriving DecidableEq, Repr, Inhabited

/-- How the bus ends a transfer (rules R101, R176, R177). -/
inductive BusEnd where
  /-- all `L` bytes moved. -/
  | complete
  /-- `short(k)`: the first `k` bytes moved. -/
  | short (k : Nat)
  /-- `ioerr`, with the length `m` of the prefix that left the block, which the block never learns. -/
  | ioerr (m : Nat)
  deriving DecidableEq, Repr, Inhabited

/-- The parameters of the instance that comes out of reset: all open (D20), so a constant with no body. -/
opaque Config.params : Params

/-- The value of `F_BUS` that a name stands for: any positive real (rule R9). -/
noncomputable opaque Config.clockRate : Nat → PosReal

/-- The value of `T_RESET` that a name stands for: any positive real (rule R8). -/
noncomputable opaque Config.resetInterval : Nat → PosReal

/-- What pixel `i` holds between reset and the first successful START: unspecified (rule R25), so a
free value. -/
opaque Config.powerOnPixel : Nat → Pixel

/-- Whether the bus answers the `n`-th undetermined OPEN with `ok` (rule R171): a free value. -/
opaque Config.openAccepted : Nat → Bool

/-- Whether the `n`-th fatal sequence under `either` attempts its cleanup transfer (rule R232): a
free value. -/
opaque Config.cleanupAttempted : Nat → Bool

/-- How the bus ends the `n`-th undetermined cleanup transfer (rule R231), before it is brought into
the legal range: a free value. -/
opaque Config.cleanupEnd : Nat → BusEnd

end Sys2Proof
end

