-- ==== Sys2Proof/Machine/Signal.lean ====
section
/-! DEFINITION. Machine/Signal.lean: the Signal Encoder (rules R81 to R83, R130 to R139) and its
inverse, which the block does not contain (rule R136). -/

namespace Sys2Proof.Machine

/-- `NIB` (rules R81, R130): logical 0 is `1000`, logical 1 is `1110`. -/
def nib (b : Bool) : BitVec 4 := if b then 0b1110 else 0b1000

/-- `PAIRBYTE` (rules R82, R131): the first bit of the pair in the upper nibble. -/
def pairByte (first second : Bool) : Byte := nib first ++ nib second

/-- `SIG` (rule R131), the signal bytes. -/
def signalBytes : List Byte := [0x88, 0x8E, 0xE8, 0xEE]

/-- `ENCODE` (rules R83, R132): four signal bytes, most significant pair first. -/
def encodeChannel (v : Byte) : List Byte :=
  [pairByte (v.getLsbD 7) (v.getLsbD 6),
   pairByte (v.getLsbD 5) (v.getLsbD 4),
   pairByte (v.getLsbD 3) (v.getLsbD 2),
   pairByte (v.getLsbD 1) (v.getLsbD 0)]

/-- The iterative form of `ENCODE` (rule R132): `n` times, output the top pair and shift left by 2. -/
def encodeByShifting : Nat → Byte → List Byte
  | 0, _ => []
  | n + 1, t => pairByte (t.getLsbD 7) (t.getLsbD 6) :: encodeByShifting n (t <<< 2)

/-- `UNNIB` (rule R136): no value on a nibble that is not a code nibble (rule R88). -/
def unnib (n : BitVec 4) : Option Bool :=
  if n = 0b1000 then some false else if n = 0b1110 then some true else none

/-- `UNPAIR` (rule R136): defined on signal bytes only. -/
def unpair (y : Byte) : Option (Bool × Bool) :=
  match unnib (y.extractLsb' 4 4), unnib (y.extractLsb' 0 4) with
  | some f, some s => some (f, s)
  | _, _ => none

/-- The byte with the given bits, `v[7]` first (rule R12). -/
def byteOfBits (b7 b6 b5 b4 b3 b2 b1 b0 : Bool) : Byte :=
  BitVec.ofBool b7 ++ BitVec.ofBool b6 ++ BitVec.ofBool b5 ++ BitVec.ofBool b4 ++
    BitVec.ofBool b3 ++ BitVec.ofBool b2 ++ BitVec.ofBool b1 ++ BitVec.ofBool b0

/-- `DECODE` (rule R136): defined exactly on sequences of four signal bytes. -/
def decodeChannel : List Byte → Option Byte
  | [y0, y1, y2, y3] =>
    match unpair y0, unpair y1, unpair y2, unpair y3 with
    | some (b7, b6), some (b5, b4), some (b3, b2), some (b1, b0) =>
      some (byteOfBits b7 b6 b5 b4 b3 b2 b1 b0)
    | _, _, _, _ => none
  | _ => none

/-- The bits of a byte, `v[7]` first: the order in which the logical bits of a channel value reach the
strip (rules R57, R138). -/
def bitsFromTop (v : Byte) : List Bool :=
  [v.getLsbD 7, v.getLsbD 6, v.getLsbD 5, v.getLsbD 4,
   v.getLsbD 3, v.getLsbD 2, v.getLsbD 1, v.getLsbD 0]

end Sys2Proof.Machine
end

