-- ==== Sys2Proof/Machine/Frame.lean ====
section
/-! DEFINITION. Machine/Frame.lean: the constants derived from an instance's parameters (rules R6 to R10) and
the Frame Assembler (rules R84 to R87, R150 to R156). -/

namespace Sys2Proof

/-- `CH` as a number. -/
def Channels.count : Channels → Nat
  | .three => 3
  | .four => 4

/-- `N`, the number of pixels (rule R6). -/
def Params.numPixels (p : Params) : Nat := p.lastIndex.toNat + 1

/-- `WORD_WIDTH`: the bus word is 8 bits (rule R9). -/
def wordWidth : Nat := 8

/-- `BPP = CH * 4`, the frame bytes of one pixel (rule R10). -/
def Params.bytesPerPixel (p : Params) : Nat := p.channels.count * 4

/-- `L = PAD + N * CH * 4`, the frame length in bytes (rule R10). -/
def Params.frameLength (p : Params) : Nat := p.pad + p.numPixels * p.bytesPerPixel

end Sys2Proof

namespace Sys2Proof.Machine

/-- The channels of a pixel in transmission order `ORDER = [G, R, B, W]`, the first `CH` of them
(rules R86, R150, R151). -/
def channelValues (ch : Channels) (p : Pixel) : List Byte :=
  match ch with
  | .three => [p.G, p.R, p.B]
  | .four => [p.G, p.R, p.B, p.W]

/-- `PIXELBYTES` (rule R150). -/
def pixelBytes (ch : Channels) (p : Pixel) : List Byte := (channelValues ch p).flatMap encodeChannel

/-- `zeros(n)` (rule R13). -/
def zeroBytes (n : Nat) : List Byte := List.replicate n 0

/-- The payload: every pixel in buffer order (rule R150). -/
def payload (ch : Channels) (pb : List Pixel) : List Byte := pb.flatMap (pixelBytes ch)

/-- `ASSEMBLE` (rule R150): the reset padding, then the payload. -/
def assemble (inst : Params) (pb : List Pixel) : List Byte :=
  zeroBytes inst.pad ++ payload inst.channels pb

/-- A buffer of `n` zero pixels (rules R114, R200). -/
def zeroBuffer (n : Nat) : List Pixel := List.replicate n Pixel.zero

/-- `DARK` (rule R156): the frame of the all-zero buffer. -/
def darkFrame (inst : Params) : List Byte := assemble inst (zeroBuffer inst.numPixels)

/-- The frame offset of byte `k` of slot `s` of pixel `i` (rule R152). -/
def frameOffset (inst : Params) (i s k : Nat) : Nat :=
  inst.pad + (i * inst.channels.count + s) * 4 + k

/-- The pixel, slot and byte that a payload offset belongs to (rule R152). -/
def frameLocation (inst : Params) (j : Nat) : Nat × Nat × Nat :=
  let q := j - inst.pad
  (q / (4 * inst.channels.count), q / 4 % inst.channels.count, q % 4)

/-- The slice `f[a..a+n)` of a frame (rule R13). -/
def slice (f : List Byte) (a n : Nat) : List Byte := (f.drop a).take n

end Sys2Proof.Machine
end

