-- ==== Sys2Proof/Machine/State.lean ====
section
/-! DEFINITION. Machine/State.lean: the state tuple of rule R20, the observation log of rule R38, the
parameters the instance was made with, what the outside agents do next (rule R17), and reset (R41). -/

namespace Sys2Proof.Machine

/-- Rule R27: the lifecycle state `LC`. -/
inductive Lifecycle where
  | uninitialized
  | active
  | closed
  | fault
  deriving DecidableEq, Repr

/-- Rule R36: the cause of the fatal error that put the block into Fault. -/
inductive FatalCause where
  | none
  | config
  | xferShort
  | xferIo
  deriving DecidableEq, Repr

/-- Rule R31: what a command returns to the host. -/
inductive Status where
  | ok
  | rejIndex
  | rejState
  | rejIllegal
  | fatal
  deriving DecidableEq, Repr

/-- Rule R35: the kinds a transfer in flight can have; `Cleanup` is never in flight. -/
inductive TransferKind where
  | refresh
  | final
  deriving DecidableEq, Repr

/-- Rule R35: the kinds a record of `TXLOG` can have. -/
inductive RecordKind where
  | refresh
  | final
  | cleanup
  deriving DecidableEq, Repr

/-- Rule R38: the result a record of `TXLOG` shows; an I/O error reports no count (rule R177). -/
inductive XferResult where
  | complete
  | short (k : Nat)
  | ioerr
  deriving DecidableEq, Repr

/-- Rule R35: the transfer in flight. -/
structure Transfer where
  kind : TransferKind
  frame : List Byte
  /-- `XFER.pos`, the count of frame bytes already shifted out (rule R30). -/
  pos : Nat
  deriving DecidableEq, Repr

/-- Rule R38: one record of `TXLOG`. -/
structure TxRecord where
  kind : RecordKind
  frame : List Byte
  result : XferResult
  emitted : List Byte
  deriving DecidableEq, Repr

/-- Rules R17, R31, R34: what the host sees. A status is a return value, not state of the block; the
model keeps the last one returned so that a claim can speak of it (assumption log entry 4). -/
inductive HostPort where
  /-- no command has been issued yet. -/
  | idle
  /-- the host is inside a command and waits for its status. -/
  | waiting
  /-- the status the last command returned. -/
  | returned (st : Status)
  deriving DecidableEq, Repr

/-- One move of an outside agent (rules R17, R101, R254). -/
inductive Event where
  /-- the host presents a command word (rule R96). -/
  | command (word : CommandWord)
  /-- `<TERMREQ>`: the interrupt source raises the termination request (rule R240). -/
  | termReq
  /-- the bus shifts out the next byte of the transfer in flight (rule R30). -/
  | shiftByte
  /-- `<XFER_DONE ...>`: the bus ends the transfer in flight (rule R176). -/
  | xferDone (e : BusEnd)
  /-- `<OPEN ok>` or `<OPEN fail>`: the bus's answer to the OPEN of the START just before it (R171). -/
  | openAnswer (accepted : Bool)
  /-- the draw of the fatal sequence under `either` (rule R232). -/
  | cleanupChoice (attempted : Bool)
  /-- the bus's end of the cleanup transfer inside the fatal sequence (rule R231). -/
  | cleanupEnd (e : BusEnd)
  deriving DecidableEq, Repr

/-- The state of the machine: the tuple of rule R20, `TXLOG`, the instance's constants, and the
outside agents' next moves. -/
structure State where
  /-- the constants of the instance (rules R6 to R11); no step changes them (rule R20). -/
  inst : Params
  /-- `PB`, the Pixel Buffer (rule R22): `N` pixels, index 0 first. -/
  pb : List Pixel
  /-- `LC` (rule R27). -/
  lc : Lifecycle
  /-- `OPEN` (rule R28). -/
  opened : Bool
  /-- `TERM_EN` (rule R29). -/
  termEn : Bool
  /-- `TERMREQ` (rule R33). -/
  termReq : Bool
  /-- `BUSY` (rule R34). -/
  busy : Bool
  /-- `XFER` (rule R35). -/
  xfer : Option Transfer
  /-- `FCAUSE` (rule R36). -/
  fcause : FatalCause
  /-- `TXLOG` (rule R38), oldest record first. -/
  txlog : List TxRecord
  /-- what the host sees (rules R17, R31). -/
  host : HostPort
  /-- what the outside agents do next, in time order (rules R17, R254). The model's own field. -/
  inbox : List Event
  /-- how many free values have been drawn. The model's own field. -/
  draws : Nat
  deriving DecidableEq, Repr

/-- No step of this block stops with a fault: its fatal errors are next states with `LC = Fault`
(rules R27, R231), and its rejections are next states with a status (rule R31). Nobody raises one. -/
inductive Fault where
  deriving DecidableEq, Repr

/-- Runs to which the spec gives no meaning. Every constructor is safe: the model stops where the
spec gives the outside agent no such move. -/
inductive Refusal where
  /-- `exec` on a command with no meaning yet; no arm uses it. Safe. -/
  | notModelled (mnemonic : String)
  /-- raised by a command presented while `BUSY = 1` (rules R270, R254). Safe. -/
  | commandWhileBusy
  /-- raised by a command presented while a termination request is due for service (rule R241): the
  block serves the request first, so `step` never reaches it. Safe. -/
  | commandBeforeService
  /-- raised by a bus that shifts or ends a transfer when none is in flight (rules R176, R254). Safe. -/
  | noTransferInFlight
  /-- raised by a bus that reports a count outside rule R177, or fewer bytes than it has shifted out,
  or shifts beyond `L` bytes (rules R30, R176, R254). Safe. -/
  | impossibleBusReport
  /-- raised by an answer to a question the block has not asked (rules R171, R231, R254). Safe. -/
  | unaskedAnswer
  deriving DecidableEq, Repr

/-- The state after reset (rule R41). `PB` is unspecified, so its pixels are free values (rule R25,
D3); the parameters are those of the instance; no outside agent has moved. -/
def State.reset : State where
  inst := Config.params
  pb := (List.range Config.params.numPixels).map Config.powerOnPixel
  lc := .uninitialized
  opened := false
  termEn := false
  termReq := false
  busy := false
  xfer := none
  fcause := .none
  txlog := []
  host := .idle
  inbox := []
  draws := 0

end Sys2Proof.Machine
end

