-- ==== Sys2Proof/Machine/Flags.lean ====
section
/-! DEFINITION. Machine/Flags.lean: the numbers of the lifecycle, status and cause values (rules R27,
R31, R36) and the conditions a command's acceptance depends on (rules R32, R222, R241). -/

namespace Sys2Proof.Machine

/-- The number of an `LC` value (rule R27). -/
def lifecycleCode : Lifecycle → BitVec 2
  | .uninitialized => 0
  | .active => 1
  | .closed => 2
  | .fault => 3

/-- The number of a status (rule R31). -/
def statusCode : Status → Nat
  | .ok => 0
  | .rejIndex => 1
  | .rejState => 2
  | .rejIllegal => 3
  | .fatal => 4

/-- The number of an `FCAUSE` value (rule R36). -/
def causeCode : FatalCause → BitVec 2
  | .none => 0
  | .config => 1
  | .xferShort => 2
  | .xferIo => 3

/-- Which command each lifecycle state accepts (rule R222). -/
def accepts (lc : Lifecycle) (i : Instr) : Bool :=
  match i with
  | .start => lc == .uninitialized
  | .setPixel _ _ _ _ _ => lc == .active
  | .clear => lc == .active
  | .refresh => lc == .active
  | .terminate => true

/-- A termination request is due for service: `TERMREQ = 1`, `LC = Active` and `BUSY = 0` (rule R241). -/
def serviceDue (s : State) : Bool := s.termReq && !s.busy && s.lc == .active

end Sys2Proof.Machine
end

