-- ==== Sys2Proof/Machine/Operands.lean ====
section
/-! DEFINITION. Machine/Operands.lean: SETPIXEL's operands: the index, used as it stands (rules R61,
R98, R116), and the pixel its four channel operands make (rules R98, R110). -/

namespace Sys2Proof.Machine

/-- Is the index one of 0 to `N-1`? It is compared unsigned and never clamped, wrapped or truncated
(rules R61, R116). -/
def indexInRange (inst : Params) (idx : Nat) : Bool := decide (idx < inst.numPixels)

/-- The pixel a SETPIXEL writes: each operand stored unchanged in its own field (rules R98, R110). -/
def pixelOf (r g b w : Byte) : Pixel := ⟨r, g, b, w⟩

end Sys2Proof.Machine
end

