-- ==== Sys2Proof/Machine/Ops.lean ====
section
/-! DEFINITION. Machine/Ops.lean: the named operations the commands and the bus's moves are made of:
the Pixel Buffer (rules R52, R110, R114), OPEN, TRANSMIT, XFER_DONE and CLOSE (rules R171 to R179), the
fatal sequence (rules R231, R232) and the start of termination (rules R204, R241). -/

namespace Sys2Proof.Machine

/-! ## The Pixel Buffer -/

/-- `PB[i]`: no value outside 0 to `N-1` (rules R14, R65). -/
def readPixel (s : State) (i : Nat) : Option Pixel := s.pb[i]?

/-- `PB[i] <- p`: all four fields of one pixel at once (rules R14, R52, R62). -/
def writePixel (i : Nat) (p : Pixel) (s : State) : State := { s with pb := s.pb.set i p }

/-- Every pixel to zero, one indivisible step (rules R62, R114). -/
def zeroPixels (s : State) : State := { s with pb := zeroBuffer s.inst.numPixels }

/-- `ASSEMBLE(PB)`: reads the whole buffer, writes nothing (rule R150). -/
def assembledFrame (s : State) : List Byte := assemble s.inst s.pb

/-- The Pixel Buffer has exactly `N` pixels (rules R22, R43 (a)). -/
abbrev Memory.wf (s : State) : Prop := s.pb.length = s.inst.numPixels

/-! ## The host's port -/

/-- The host is inside a command and waits for its status (rules R17, R34). -/
def issue (s : State) : State := { s with host := .waiting }

/-- What the host sees when a command ends: a host inside a command gets its status; with no host inside
a command (a termination serviced from a request) there is nobody to answer (rules R204, R231). -/
def answeredPort (st : Status) : HostPort → HostPort
  | .idle => .idle
  | .waiting => .returned st
  | .returned last => .returned last

/-- The command the host is inside returns its status (rules R31, R204, R231). -/
def answerHost (st : Status) (s : State) : State := { s with host := answeredPort st s.host }

/-- A command is accepted only while `BUSY = 0` and no termination request is due for service
(rules R110, R241, R270); otherwise the host has no such move and the run has no meaning. -/
def whenFree (s : State) (body : State → State) : Host.Outcome State Fault Refusal :=
  if s.busy then .refused .commandWhileBusy
  else if serviceDue s then .refused .commandBeforeService
  else .next (body (issue s))

/-- `if LC is not the required value then reject REJ_STATE`: a rejection changes no state and only
returns its status (rules R15, R222). -/
def requireState (lc : Lifecycle) (body : State → State) (s : State) : State :=
  if s.lc = lc then body s else answerHost .rejState s

/-! ## Draws -/

/-- A draw on which no rule decides takes the next free value. -/
def countDraw (s : State) : State := { s with draws := s.draws + 1 }

/-- `ask Bus.open()` (rules R15, R171): the answer listed next, else a free value. -/
def drawOpenAnswer (s : State) : Bool × State :=
  match s.inbox with
  | .openAnswer accepted :: rest => (accepted, { s with inbox := rest })
  | _ => (Config.openAccepted s.draws, countDraw s)

/-- `CLEANUP_ATTEMPTED` (rule R232): fixed by `attempt` and `skip`; under `either` the choice listed
next, else a free value. -/
def drawCleanupAttempted (s : State) : Bool × State :=
  match s.inst.cleanup with
  | .attempt => (true, s)
  | .skip => (false, s)
  | .either =>
    match s.inbox with
    | .cleanupChoice attempted :: rest => (attempted, { s with inbox := rest })
    | _ => (Config.cleanupAttempted s.draws, countDraw s)

/-- May the bus end a transfer of `L` bytes this way, `pos` of them being out already? A short
transfer has `k < L`, an error at most `L` bytes (rule R177), and what has left stays out (rule R30). -/
def possibleEnd (length pos : Nat) : BusEnd → Bool
  | .complete => true
  | .short k => decide (pos ≤ k) && decide (k < length)
  | .ioerr m => decide (pos ≤ m) && decide (m ≤ length)

/-- Bring a free end into the legal set of a transfer of `L` bytes (rule R177): every member of the
set comes from some free value. -/
def legalEnd (length : Nat) : BusEnd → BusEnd
  | .complete => .complete
  | .short k => .short (k % length)
  | .ioerr m => .ioerr (m % (length + 1))

/-- `ask Bus.result(f)` of the cleanup transfer (rule R231): the possible end listed next, else a free
value. -/
def drawCleanupEnd (s : State) : BusEnd × State :=
  match s.inbox with
  | .cleanupEnd e :: rest =>
    if possibleEnd s.inst.frameLength 0 e then (e, { s with inbox := rest })
    else (legalEnd s.inst.frameLength (Config.cleanupEnd s.draws), countDraw s)
  | _ => (legalEnd s.inst.frameLength (Config.cleanupEnd s.draws), countDraw s)

/-! ## The bus -/

/-- The success path of OPEN (rule R171). -/
def openBus (s : State) : State := { s with opened := true }

/-- CLOSE (rule R179): idempotent. -/
def closeBus (s : State) : State := { s with opened := false }

/-- TRANSMIT (rule R174). -/
def transmit (kind : TransferKind) (f : List Byte) (s : State) : State :=
  { s with xfer := some ⟨kind, f, 0⟩, busy := true }

/-- `BUSY <- 0; XFER <- none` (rules R176, R231). -/
def endTransfer (s : State) : State := { s with busy := false, xfer := none }

/-- `EMITTED` (rule R177): a prefix of the frame. -/
def emittedBytes (f : List Byte) : BusEnd → List Byte
  | .complete => f
  | .short k => f.take k
  | .ioerr m => f.take m

/-- What the bus reports to the block: an error carries no count (rules R38, R177). -/
def reportedResult : BusEnd → XferResult
  | .complete => .complete
  | .short k => .short k
  | .ioerr _ => .ioerr

/-- The record a transfer leaves in `TXLOG` (rules R38, R176). -/
def transferRecord (kind : RecordKind) (f : List Byte) (e : BusEnd) : TxRecord :=
  ⟨kind, f, reportedResult e, emittedBytes f e⟩

/-- `TXLOG <- TXLOG ++ [record]` (rules R15, R38). -/
def logRecord (r : TxRecord) (s : State) : State := { s with txlog := s.txlog ++ [r] }

/-- The kind of record a transfer leaves (rule R38). -/
def recordKind : TransferKind → RecordKind
  | .refresh => .refresh
  | .final => .final

/-! ## The fatal sequence: the block's exception entry (rules R231, R232) -/

/-- The optional cleanup transfer of the dark frame; its result is ignored (rules R231, R232). -/
def attemptCleanup (s : State) : State :=
  let choice := drawCleanupAttempted s
  if choice.1 then
    let done := drawCleanupEnd choice.2
    logRecord (transferRecord .cleanup (assembledFrame done.2) done.1) done.2
  else choice.2

/-- The kind of the transfer in flight, `origin` of rule R231. -/
def transferOrigin (s : State) : Option TransferKind := s.xfer.map Transfer.kind

/-- The state changes of the fatal sequence before its cleanup: `TERM_EN`, `TERMREQ`, `BUSY`, `XFER`
cleared and the buffer zeroed (rule R231). -/
def fatalBlank (s : State) : State :=
  zeroPixels (endTransfer { s with termEn := false, termReq := false })

/-- The state changes of the fatal sequence after its cleanup: CLOSE, `FCAUSE`, `LC = Fault`, and the
blocked command returns FATAL (rule R231). -/
def fatalHalt (cause : FatalCause) (s : State) : State :=
  answerHost .fatal { closeBus s with fcause := cause, lc := .fault }

/-- `raise Fatal(cause)` (rule R231), one indivisible step. A cleanup transfer is possible only after a
failed Refresh on an open bus (rule R232). -/
def fatal (cause : FatalCause) (s : State) : State :=
  if s.opened = true ∧ transferOrigin s = some .refresh then
    fatalHalt cause (attemptCleanup (fatalBlank s))
  else fatalHalt cause (fatalBlank s)

/-! ## Termination: the block's interrupt entry (rules R204, R241, R246); it has no return (R247) -/

/-- Step 1 of TERMINATE in Active (rule R204), whether the host or a latched request asked for it. -/
def beginTermination (s : State) : State :=
  let s := zeroPixels { s with termEn := false, termReq := false }
  transmit .final (assembledFrame s) s

/-- Step 2 of TERMINATE after a complete final transfer: CLOSE, `LC = Closed` (rule R204). -/
def finishTermination (s : State) : State := { closeBus s with lc := .closed }

/-- A raise of the termination request is latched while `TERM_EN = 1` and lost otherwise (rule R240). -/
def raiseRequest (s : State) : State := if s.termEn then { s with termReq := true } else s

/-! ## XFER_DONE (rule R176) -/

/-- The command that called TRANSMIT goes on after a complete transfer (rules R158, R176, R204). -/
def continueCommand (kind : TransferKind) (s : State) : State :=
  match kind with
  | .refresh => answerHost .ok (endTransfer s)
  | .final => answerHost .ok (finishTermination (endTransfer s))

/-- The effect of XFER_DONE on the transfer in flight (rule R176). -/
def afterTransfer (x : Transfer) (e : BusEnd) (s : State) : State :=
  let s := logRecord (transferRecord (recordKind x.kind) x.frame e) s
  match e with
  | .complete => continueCommand x.kind s
  | .short _ => fatal .xferShort s
  | .ioerr _ => fatal .xferIo s

/-- The transfer in flight, if there is one: `BUSY = 1` and `XFER` holds it (rules R34, R176). -/
def inFlight (s : State) : Option Transfer := if s.busy then s.xfer else none

/-- XFER_DONE, a move of the bus, enabled exactly when a transfer is in flight (rule R176). -/
def xferDone (e : BusEnd) (s : State) : Host.Outcome State Fault Refusal :=
  match inFlight s with
  | none => .refused .noTransferInFlight
  | some x =>
    if possibleEnd s.inst.frameLength x.pos e then .next (afterTransfer x e s)
    else .refused .impossibleBusReport

/-- The bus shifts out one byte: `XFER.pos` advances by 1, never beyond `L` (rule R30). -/
def shiftOut (s : State) : Host.Outcome State Fault Refusal :=
  match inFlight s with
  | none => .refused .noTransferInFlight
  | some x =>
    if x.pos < s.inst.frameLength then .next { s with xfer := some { x with pos := x.pos + 1 } }
    else .refused .impossibleBusReport

end Sys2Proof.Machine
end

