-- ==== Sys2Proof/Machine/Lifecycle.lean ====
section
/-! DEFINITION. Machine/Lifecycle.lean: START and TERMINATE (spec/44_lifecycle.md). -/

namespace Sys2Proof.Machine

/-- START once the bus has answered `ok`: the bus is open, the buffer zeroed, the termination request
enabled, and the block Active (rule R200). -/
def startActive (s : State) : State :=
  { zeroPixels (openBus s) with termEn := true, lc := .active }

/-- START past its acceptance (rules R171, R200): one indivisible step around the bus's answer. -/
def startBody : State → State :=
  requireState .uninitialized fun s =>
    let answer := drawOpenAnswer s
    if answer.1 then answerHost .ok (startActive answer.2) else fatal .config answer.2

/-- START (rule R200). -/
def execStart (s : State) : Host.Outcome State Fault Refusal := whenFree s startBody

/-- TERMINATE past its acceptance (rules R204, R206): outside Active it returns OK and does nothing. -/
def terminateBody (s : State) : State :=
  if s.lc = .active then beginTermination s else answerHost .ok s

/-- TERMINATE (rule R204). -/
def execTerminate (s : State) : Host.Outcome State Fault Refusal := whenFree s terminateBody

end Sys2Proof.Machine
end

