-- ==== Sys2Proof/Machine/PixelBuffer.lean ====
section
/-! DEFINITION. Machine/PixelBuffer.lean: SETPIXEL and CLEAR (spec/40_pixel_buffer.md). -/

namespace Sys2Proof.Machine

/-- SETPIXEL past its acceptance (rule R110): the lifecycle check comes before the index check
(rules R103, R244). -/
def setPixelBody (idx : Nat) (r g b w : Byte) : State → State :=
  requireState .active fun s =>
    if indexInRange s.inst idx then answerHost .ok (writePixel idx (pixelOf r g b w) s)
    else answerHost .rejIndex s

/-- SETPIXEL (rule R110). -/
def execSetPixel (idx : Nat) (r g b w : Byte) (s : State) : Host.Outcome State Fault Refusal :=
  whenFree s (setPixelBody idx r g b w)

/-- CLEAR past its acceptance (rule R114). -/
def clearBody : State → State := requireState .active fun s => answerHost .ok (zeroPixels s)

/-- CLEAR (rule R114). -/
def execClear (s : State) : Host.Outcome State Fault Refusal := whenFree s clearBody

end Sys2Proof.Machine
end

