-- ==== Sys2Proof/Machine/Refresh.lean ====
section
/-! DEFINITION. Machine/Refresh.lean: REFRESH (spec/42_frame_assembler.md). -/

namespace Sys2Proof.Machine

/-- REFRESH past its acceptance, step 1 (rule R158): the frame is a snapshot of the buffer; the host
stays blocked until XFER_DONE. -/
def refreshBody : State → State :=
  requireState .active fun s => transmit .refresh (assembledFrame s) s

/-- REFRESH (rule R158). -/
def execRefresh (s : State) : Host.Outcome State Fault Refusal := whenFree s refreshBody

end Sys2Proof.Machine
end

