-- ==== Sys2Proof/Machine/Agents.lean ====
section
/-! DEFINITION. Machine/Agents.lean: the moves of the host, the interrupt source and the bus, and the
block's own service of a due termination request (rules R17, R241, R254). -/

namespace Sys2Proof.Machine

/-- An illegal word is rejected with REJ_ILLEGAL in every lifecycle state and changes nothing
(rule R99). -/
def execIllegal (s : State) : Host.Outcome State Fault Refusal := whenFree s (answerHost .rejIllegal)

/-- The host presents a command word: decoding comes first (rule R103). -/
def presentWord (x : CommandWord) (s : State) : Host.Outcome State Fault Refusal :=
  match decode x with
  | .ok i => exec i s
  | .error _ => execIllegal s

/-- One move of an outside agent. An answer that no question of the block precedes is no move of the
bus (rule R254). -/
def takeEvent (e : Event) (s : State) : Host.Outcome State Fault Refusal :=
  match e with
  | .command x => presentWord x s
  | .termReq => .next (raiseRequest s)
  | .shiftByte => shiftOut s
  | .xferDone r => xferDone r s
  | .openAnswer _ => .refused .unaskedAnswer
  | .cleanupChoice _ => .refused .unaskedAnswer
  | .cleanupEnd _ => .refused .unaskedAnswer

/-- The next move of the whole machine: a due request is served before anything else (rules R241,
R245); then the outside agents' next move; with none, the block idles, or hangs in a transfer the bus
never ends (rules R227, R253). -/
def nextMove (s : State) : Host.Outcome State Fault Refusal :=
  if serviceDue s then .next (beginTermination s)
  else
    match s.inbox with
    | [] => .next s
    | e :: rest => takeEvent e { s with inbox := rest }

/-- The host presents `x` before everything else the outside agents do. -/
def placeWord (x : CommandWord) (s : State) : State := { s with inbox := .command x :: s.inbox }

end Sys2Proof.Machine
end

