-- ==== Sys2Proof/Machine/Step.lean ====
section
/-! DEFINITION. Machine/Step.lean: one step of the machine, and how a command word is presented. -/

namespace Sys2Proof.Machine

/-- One step (rules R17, R241). -/
def step (s : State) : Host.Outcome State Fault Refusal := nextMove s

/-- The host presents the command word with the given bits as its next move. -/
def State.withFetchWord (s : State) (nbits w : Nat) : State := placeWord (tableWord nbits w) s

end Sys2Proof.Machine
end

