-- ==== Sys2Proof/Machine/Timing.lean ====
section
/-! DEFINITION. Machine/Timing.lean: the durations the spec derives from the bus clock, in seconds (rules
R8, R10, R130, R281 to R283), as real numbers and for every positive `F_BUS` and `T_RESET`. No step of the
machine reads any of them (rule R280). -/

namespace Sys2Proof

/-- The `F_BUS` and `T_RESET` of an instance (rules R8, R9). -/
noncomputable def Params.timing (p : Params) : BusTiming :=
  ⟨Config.clockRate p.busClock, Config.resetInterval p.resetTime⟩

end Sys2Proof

namespace Sys2Proof.Machine

/-- `T_CLK = 1 / F_BUS`, the time of one bus bit (rule R10). -/
noncomputable def clockPeriod (tm : BusTiming) : ℝ := 1 / tm.busClock.val

/-- `T_BIT = 4 * T_CLK`, the strip's bit period (rule R10). -/
noncomputable def bitPeriod (tm : BusTiming) : ℝ := 4 * clockPeriod tm

/-- The number of bus bits for which a logical bit holds the line high: the 1 bits of its nibble
(rule R130). -/
def highClocks (b : Bool) : Nat :=
  ([3, 2, 1, 0].filter fun k => (nib b).getLsbD k).length

/-- How long a logical bit holds the line high (rules R130, R281). -/
noncomputable def highTime (tm : BusTiming) (b : Bool) : ℝ := highClocks b * clockPeriod tm

/-- How long a logical bit holds the line low (rules R130, R281). -/
noncomputable def lowTime (tm : BusTiming) (b : Bool) : ℝ :=
  (4 - highClocks b : Nat) * clockPeriod tm

/-- How long the padding holds the line low (rule R282). -/
noncomputable def paddingTime (inst : Params) (tm : BusTiming) : ℝ :=
  (wordWidth * inst.pad : Nat) * clockPeriod tm

/-- The requirement on `PAD` (rules R8, R282): a premise of timing claims only (rule R274). -/
def PaddingSuffices (inst : Params) (tm : BusTiming) : Prop :=
  tm.resetTime.val ≤ paddingTime inst tm

/-- The smallest legal `PAD`, `ceil(T_RESET * F_BUS / 8)` (rules R8, R282). -/
noncomputable def leastPad (tm : BusTiming) : Nat :=
  ⌈tm.resetTime.val * tm.busClock.val / wordWidth⌉₊

/-- How long a completed transfer keeps the bus busy (rule R283). -/
noncomputable def frameTime (inst : Params) (tm : BusTiming) : ℝ :=
  (wordWidth * inst.frameLength : Nat) * clockPeriod tm

/-- The bound on the refresh rate, in frames per second (rule R283). -/
noncomputable def refreshRateBound (inst : Params) (tm : BusTiming) : ℝ :=
  tm.busClock.val / (wordWidth * inst.frameLength : Nat)

end Sys2Proof.Machine
end

