-- ==== Sys2Proof/Machine/Wire.lean ====
section
/-! DEFINITION. Machine/Wire.lean: the serialisation of bytes to bus bits and the bit-level observation
`WIRE` (rules R39, R58, R81, R138, R182 to R187). A bus bit 1 is the line high. -/

namespace Sys2Proof.Machine

/-- `SER` of one byte (rules R58, R182): eight bus bits, most significant first. -/
def serializeByte (y : Byte) : List Bool := bitsFromTop y

/-- `SER` of a sequence of bytes: no bit between two bytes (rules R182, R183). -/
def serializeBytes (f : List Byte) : List Bool := f.flatMap serializeByte

/-- The four bus bits of one logical bit, `1 b b 0` (rules R81, R138). -/
def logicalBitOnWire (b : Bool) : List Bool := [true, b, b, false]

/-- The bus bits of one channel value (rule R138). -/
def channelOnWire (v : Byte) : List Bool := (bitsFromTop v).flatMap logicalBitOnWire

/-- `IDLE_LEVEL`: the line is low outside a transfer (rule R184). -/
def idleLevel : Bool := false

/-- The level of the data line where the spec gives it without a position in time: at `IDLE_LEVEL`
while the bus is open and no transfer is in flight; before OPEN and after CLOSE nothing is said
(rules R172, R184). -/
def restLevel (s : State) : Option Bool :=
  if s.opened && !s.busy then some idleLevel else none

/-- `WIRE` (rule R39): the bus bits of what each record of `TXLOG` emitted, in order; the idle stretches
between records have no duration in the spec. -/
def wireBits (log : List TxRecord) : List Bool := log.flatMap fun r => serializeBytes r.emitted

/-- How many times the line rises in a sequence of bus bits that follows the given level (rule R186). -/
def risingEdges : Bool → List Bool → Nat
  | _, [] => 0
  | prev, b :: rest => (if !prev && b then 1 else 0) + risingEdges b rest

end Sys2Proof.Machine
end

