-- ==== Sys2Proof/Safety.lean ====
section
/-! DEFINITION. Safety.lean: the terms claims are made in: when a command is accepted, the shape of frames
and records, the invariant of rule R43, and commands in sequence. -/

namespace Sys2Proof.Machine

/-- The host may present a command: `BUSY = 0` and no termination request is due for service (rules
R110, R241, R270). -/
abbrev CommandFree (s : State) : Prop := s.busy = false ∧ serviceDue s = false

/-- The shape of every frame (rules R43 (h), R88): length `L`, `PAD` zero bytes, then signal bytes. -/
def FrameShape (inst : Params) (f : List Byte) : Prop :=
  f.length = inst.frameLength ∧ f.take inst.pad = zeroBytes inst.pad ∧
    ∀ y ∈ f.drop inst.pad, y ∈ signalBytes

/-- What a record says it emitted agrees with its result, and is a prefix of its frame (rules R38,
R177). -/
def ResultAgrees (inst : Params) (r : TxRecord) : Prop :=
  match r.result with
  | .complete => r.emitted = r.frame
  | .short k => k < inst.frameLength ∧ r.emitted = r.frame.take k
  | .ioerr => r.emitted <+: r.frame

/-- A record of `TXLOG` (rules R38, R43 (h)): every record but a Refresh carries the dark frame (rules
R204, R231). -/
def RecordShape (inst : Params) (r : TxRecord) : Prop :=
  FrameShape inst r.frame ∧ ResultAgrees inst r ∧ (r.kind ≠ .refresh → r.frame = darkFrame inst)

/-- The invariant of rule R43, clauses (a) to (h), with what it takes for a step to keep it. -/
structure Invariant (s : State) : Prop where
  /-- R43 (a). -/
  pixels : Memory.wf s
  /-- R43 (b). -/
  openIffActive : s.opened = true ↔ s.lc = .active
  /-- R43 (c). -/
  busyIffXfer : s.busy = true ↔ s.xfer ≠ none
  /-- R43 (d); `OPEN = 1` follows with (b). -/
  busyActive : s.busy = true → s.lc = .active
  /-- R43 (e), its `TERM_EN` part; the rest is the next clause. -/
  requestEnabled : s.termReq = true → s.termEn = true
  /-- R43 (e), its `LC` part: `TERM_EN` is set only in Active (rule R29). -/
  enabledActive : s.termEn = true → s.lc = .active
  /-- R43 (f). -/
  causeIffFault : s.fcause ≠ .none ↔ s.lc = .fault
  /-- R43 (g). -/
  terminalDark : s.lc = .closed ∨ s.lc = .fault → s.pb = zeroBuffer s.inst.numPixels
  /-- R43 (h). -/
  records : ∀ r ∈ s.txlog, RecordShape s.inst r
  /-- the frame in flight is that of the buffer, which nothing writes meanwhile (rules R62, R35), and at
  most `L` bytes are out (rule R30). -/
  flight : ∀ x, s.xfer = some x →
    x.frame = assembledFrame s ∧ x.pos ≤ s.inst.frameLength
  /-- during the final transfer the buffer is zero and requests are lost (rules R204, R241 (c)). -/
  finalDark : ∀ x, s.xfer = some x → x.kind = .final →
    s.pb = zeroBuffer s.inst.numPixels ∧ s.termEn = false
  /-- only termination disables requests in Active (rules R29, R204). -/
  activeEnabled : s.lc = .active → s.termEn = false → ∃ x, s.xfer = some x ∧ x.kind = .final
  /-- the host is inside a REFRESH for as long as its transfer lasts (rule R34). -/
  refreshWaits : ∀ x, s.xfer = some x → x.kind = .refresh → s.host = .waiting
  /-- the host waits only while a transfer is in flight (rules R17, R34). -/
  waitsBusy : s.host = .waiting → s.busy = true

/-- The next state of an outcome goes on with `f`; a stop stays a stop. -/
def andThen (o : Host.Outcome State Fault Refusal) (f : State → Host.Outcome State Fault Refusal) :
    Host.Outcome State Fault Refusal :=
  match o with
  | .next s => f s
  | .fault r => .fault r
  | .refused r => .refused r

/-- Commands one after the other, each executed when the one before it has answered. -/
def execAll : List Instr → State → Host.Outcome State Fault Refusal
  | [], s => .next s
  | i :: rest, s => andThen (exec i s) (execAll rest)

/-- `n` steps, stopping at the first refusal. -/
def runSteps : Nat → State → Host.Outcome State Fault Refusal
  | 0, s => .next s
  | n + 1, s => andThen (step s) (runSteps n)

/-- The state with every pixel's W field cleared (rule R26). -/
def withoutW (s : State) : State :=
  { s with pb := s.pb.map fun p => { p with W := 0 } }

end Sys2Proof.Machine
end

