-- ==== Sys2Proof/Certificates/Slice0/Obligations.lean ====
section
/-! DEFINITION. Certificates/Slice0/Obligations.lean: the statements for the provers. What a command's
next state holds is written out field by field; a field not named is unchanged. The host's status is read
in the model's `host` field (assumption log entry 4). -/

open Sys2Proof Sys2Proof.Machine

/-! ## Encodings -/

/-- Words of spec/95_test_vectors.md section 2.6, one per command and two illegal ones. -/
def Obligations.SampleWordsDecode : Prop :=
  decode 0x0100000000000000 = .ok .start ∧
  decode 0x02000001FF800155 = .ok (.setPixel 1 255 128 1 85) ∧
  decode 0x02FFFFFFFFFFFFFF = .ok (.setPixel 16777215 255 255 255 255) ∧
  decode 0x0300000000000000 = .ok .clear ∧
  decode 0x0400000000000000 = .ok .refresh ∧
  decode 0x0500000000000000 = .ok .terminate ∧
  decode 0x0000000000000000 = .error (.unknownOperation 0x00) ∧
  decode 0x0480000000000000 = .error (.reservedBitSet 0x04)

/-- Decoding the word of any well-formed command gives the command back, every operand at every value. -/
def Obligations.DecodeOfEncode : Prop :=
  ∀ i : Instr, WellFormed i → decode (encode i) = .ok i

/-- Every legal word is the word of the command it decodes to, which is well-formed. -/
def Obligations.EncodeOfDecode : Prop :=
  ∀ (x : CommandWord) (i : Instr), decode x = .ok i → WellFormed i ∧ encode i = x

/-- The layout of a SETPIXEL word, as a number: op at bit 56, index at 32, then R, G, B, W (rule R96's
table). -/
def Obligations.SetPixelWordLayout : Prop :=
  ∀ (idx : Nat) (r g b w : Byte), idx < 2 ^ 24 →
    decode (BitVec.ofNat 64 (0x02 * 2 ^ 56 + idx * 2 ^ 32 + r.toNat * 2 ^ 24 + g.toNat * 2 ^ 16 +
        b.toNat * 2 ^ 8 + w.toNat)) = .ok (.setPixel idx r g b w)

/-- Rule R97: a legal word selects exactly the row of its command; an illegal word selects none. The word is
the spec's own choice (decision D9, log entry 22). -/
def Obligations.DecoderSelectsTableRow : Prop :=
  ∀ x : CommandWord,
    (∀ i, decode x = .ok i →
      (opcodeRows.filter fun row => row.selects x).map OpcodeRow.mnemonic = [i.mnemonic]) ∧
    (∀ e, decode x = .error e → (opcodeRows.filter fun row => row.selects x) = [])

/-- Rule R99: which words are illegal, and that an illegal word presented by a host that may present a
command returns REJ_ILLEGAL (status 3) in every lifecycle state and changes nothing. The words are the spec's
own choice (decision D9, log entry 22). -/
def Obligations.IllegalWordsRejected : Prop :=
  (∀ x : CommandWord, (∃ e, decode x = .error e) ↔
    opField x = 0x00 ∨ 0x06 ≤ (opField x).toNat ∨
      (opField x ∈ ([0x01, 0x03, 0x04, 0x05] : List Byte) ∧ ∃ k < 56, x.getLsbD k = true)) ∧
  (∀ (x : CommandWord) (s : State), CommandFree s → (∃ e, decode x = .error e) →
    presentWord x s = .next { s with host := .returned .rejIllegal }) ∧
  statusCode .rejIllegal = 3

/-! ## The signal code -/

/-- Rule R137: DECODE and ENCODE are inverse on channel values and on sequences of four signal bytes. -/
def Obligations.SignalCodeRoundTrip : Prop :=
  (∀ v : Byte, decodeChannel (encodeChannel v) = some v) ∧
  (∀ y : List Byte, y.length = 4 → (∀ b ∈ y, b ∈ signalBytes) →
    ∃ v, decodeChannel y = some v ∧ encodeChannel v = y)

/-- DECODE has a value exactly on sequences of four signal bytes (rule R136). -/
def Obligations.SignalDecodeDomain : Prop :=
  ∀ y : List Byte,
    (decodeChannel y).isSome = true ↔ y.length = 4 ∧ ∀ b ∈ y, b ∈ signalBytes

/-! ## The frame -/

/-- Rule R154: the frame length for every buffer, and the all-zero buffer's frame. -/
def Obligations.FrameLengthAndDarkFrame : Prop :=
  ∀ inst : Params,
    (∀ pb : List Pixel, pb.length = inst.numPixels →
      (assemble inst pb).length = inst.pad + inst.numPixels * inst.channels.count * 4) ∧
    darkFrame inst =
      List.replicate inst.pad 0x00 ++
        List.replicate (inst.numPixels * inst.channels.count * 4) 0x88

/-- Rule R152: what stands at each frame offset, and which pixel, slot and byte each payload offset
belongs to. -/
def Obligations.FrameOffsets : Prop :=
  ∀ (inst : Params) (pb : List Pixel), pb.length = inst.numPixels →
    (∀ j < inst.pad, (assemble inst pb)[j]? = some 0x00) ∧
    (∀ i p s v k, pb[i]? = some p → (channelValues inst.channels p)[s]? = some v → k < 4 →
      (assemble inst pb)[inst.pad + (i * inst.channels.count + s) * 4 + k]? =
        (encodeChannel v)[k]? ∧
      (encodeChannel v)[k]? = some (pairByte (v.getLsbD (7 - 2 * k)) (v.getLsbD (6 - 2 * k)))) ∧
    (∀ j, inst.pad ≤ j → j < inst.frameLength →
      let i := (j - inst.pad) / (4 * inst.channels.count)
      let s := (j - inst.pad) / 4 % inst.channels.count
      let k := (j - inst.pad) % 4
      frameLocation inst j = (i, s, k) ∧ i < inst.numPixels ∧ s < inst.channels.count ∧ k < 4 ∧
        inst.pad + (i * inst.channels.count + s) * 4 + k = j)

/-- The channel order (rule R151): the slice of pixel `i` is G, R, B, and W last when `CH = 4`. -/
def Obligations.FrameChannelOrder : Prop :=
  ∀ (inst : Params) (pb : List Pixel) (i : Nat) (p : Pixel), pb[i]? = some p →
    slice (assemble inst pb) (inst.pad + i * inst.channels.count * 4) (inst.channels.count * 4) =
      encodeChannel p.G ++ encodeChannel p.R ++ encodeChannel p.B ++
        (if inst.channels = .four then encodeChannel p.W else [])

/-- Recovery and injectivity of the frame on what is transmitted (rule R155 (c) and (e)). -/
def Obligations.FrameRecovery : Prop :=
  ∀ (inst : Params) (pb : List Pixel), pb.length = inst.numPixels →
    (∀ i p s v, pb[i]? = some p → (channelValues inst.channels p)[s]? = some v →
      decodeChannel (slice (assemble inst pb) (frameOffset inst i s 0) 4) = some v) ∧
    (∀ pb' : List Pixel, pb'.length = inst.numPixels → assemble inst pb = assemble inst pb' →
      pb.map (channelValues inst.channels) = pb'.map (channelValues inst.channels))

/-- Locality of the frame (rule R155 (b)): changing pixel `i` changes at most its slice, and changing one
transmitted field of it at most that field's four bytes. -/
def Obligations.FrameLocality : Prop :=
  ∀ (inst : Params) (pb : List Pixel) (i : Nat) (p q : Pixel), pb[i]? = some p →
    (∀ j, ¬ (frameOffset inst i 0 0 ≤ j ∧ j < frameOffset inst (i + 1) 0 0) →
      (assemble inst (pb.set i q))[j]? = (assemble inst pb)[j]?) ∧
    (∀ s, (∀ s', s' ≠ s →
        (channelValues inst.channels p)[s']? = (channelValues inst.channels q)[s']?) →
      ∀ j, ¬ (frameOffset inst i s 0 ≤ j ∧ j < frameOffset inst i s 0 + 4) →
        (assemble inst (pb.set i q))[j]? = (assemble inst pb)[j]?)

/-- Rule R186: one frame on the wire. -/
def Obligations.FrameOnTheWire : Prop :=
  ∀ (inst : Params) (pb : List Pixel), pb.length = inst.numPixels →
    let logical := pb.flatMap fun p => (channelValues inst.channels p).flatMap bitsFromTop
    serializeBytes (assemble inst pb) =
      List.replicate (8 * inst.pad) false ++ logical.flatMap (fun b => [true, b, b, false]) ∧
    logical.length = 8 * inst.channels.count * inst.numPixels ∧
    risingEdges idleLevel (serializeBytes (assemble inst pb)) = logical.length ∧
    (serializeBytes (assemble inst pb)).length =
      8 * inst.pad + 32 * inst.channels.count * inst.numPixels ∧
    idleLevel = false

/-! ## START -/

/-- Rule R200: START, from every state that meets the invariant: the bus's answer `ok` makes the block
Active, `fail` takes it through the fatal sequence, and outside Uninitialized it is rejected. -/
def Obligations.StartResult : Prop :=
  (∀ s, Invariant s → s.lc = .uninitialized → (drawOpenAnswer s).1 = true →
    exec .start s = .next
      { (drawOpenAnswer s).2 with
        opened := true, pb := List.replicate s.inst.numPixels ⟨0, 0, 0, 0⟩, termEn := true,
        lc := .active, host := .returned .ok }) ∧
  (∀ s, Invariant s → s.lc = .uninitialized → (drawOpenAnswer s).1 = false →
    exec .start s = .next
      { (drawOpenAnswer s).2 with
        opened := false, pb := List.replicate s.inst.numPixels ⟨0, 0, 0, 0⟩, termEn := false,
        lc := .fault, fcause := .config, host := .returned .fatal }) ∧
  (∀ s, CommandFree s → s.lc ≠ .uninitialized →
    exec .start s = .next { s with host := .returned .rejState })

/-- The bus's answer to an OPEN is the one listed next (rules R101, R171), else the free value of the
model (assumption log entry 2): for that value nothing is claimed. -/
def Obligations.OpenAnswerDrawn : Prop :=
  ∀ (s : State) (a : Bool) (rest : List Event),
    (s.inbox = .openAnswer a :: rest → drawOpenAnswer s = (a, { s with inbox := rest })) ∧
    ((∀ a' rest', s.inbox ≠ .openAnswer a' :: rest') →
      drawOpenAnswer s = (Config.openAccepted s.draws, { s with draws := s.draws + 1 }))

/-- Rule R42: the state after a successful START. -/
def Obligations.StateAfterStart : Prop :=
  ∀ s t, Invariant s → s.lc = .uninitialized → exec .start s = .next t → t.host = .returned .ok →
    (∀ i < t.inst.numPixels, readPixel t i = some ⟨0, 0, 0, 0⟩) ∧ t.lc = .active ∧
    t.opened = true ∧ t.termEn = true ∧ t.termReq = false ∧ t.busy = false ∧ t.xfer = none ∧
    t.fcause = .none ∧ t.txlog = s.txlog

/-! ## SETPIXEL and CLEAR -/

/-- Rule R110: SETPIXEL. -/
def Obligations.SetPixelResult : Prop :=
  ∀ (s : State) (idx : Nat) (r g b w : Byte), CommandFree s →
    (s.lc ≠ .active →
      exec (.setPixel idx r g b w) s = .next { s with host := .returned .rejState }) ∧
    (s.lc = .active → s.inst.numPixels ≤ idx →
      exec (.setPixel idx r g b w) s = .next { s with host := .returned .rejIndex }) ∧
    (s.lc = .active → idx < s.inst.numPixels →
      exec (.setPixel idx r g b w) s =
        .next { s with pb := s.pb.set idx ⟨r, g, b, w⟩, host := .returned .ok })

/-- Rule R111: the laws of SETPIXEL. -/
def Obligations.SetPixelLaws : Prop :=
  ∀ (s t : State) (i : Nat) (r g b w : Byte), Memory.wf s → CommandFree s → s.lc = .active →
    i < s.inst.numPixels → exec (.setPixel i r g b w) s = .next t →
    -- (a)
    readPixel t i = some ⟨r, g, b, w⟩ ∧ (∀ j, j ≠ i → readPixel t j = readPixel s j) ∧
    -- (b)
    (∀ r' g' b' w', exec (.setPixel i r' g' b' w') t = exec (.setPixel i r' g' b' w') s) ∧
    -- (c)
    (∀ j r' g' b' w', j ≠ i → j < s.inst.numPixels →
      execAll [.setPixel i r g b w, .setPixel j r' g' b' w'] s =
        execAll [.setPixel j r' g' b' w', .setPixel i r g b w] s) ∧
    -- (d)
    slice (assembledFrame t) (s.inst.pad + i * s.inst.channels.count * 4)
        (s.inst.channels.count * 4) =
      encodeChannel g ++ encodeChannel r ++ encodeChannel b ++
        (if s.inst.channels = .four then encodeChannel w else []) ∧
    (∀ j, ¬ (s.inst.pad + i * s.inst.channels.count * 4 ≤ j ∧
          j < s.inst.pad + (i + 1) * s.inst.channels.count * 4) →
      (assembledFrame t)[j]? = (assembledFrame s)[j]?)

/-- Rule R114: CLEAR. -/
def Obligations.ClearResult : Prop :=
  ∀ s : State, CommandFree s →
    (s.lc ≠ .active → exec .clear s = .next { s with host := .returned .rejState }) ∧
    (s.lc = .active →
      exec .clear s = .next
        { s with pb := List.replicate s.inst.numPixels ⟨0, 0, 0, 0⟩, host := .returned .ok })

/-- Rule R115: the laws of CLEAR; in (c) the `N` SETPIXELs come in any order `order`. -/
def Obligations.ClearLaws : Prop :=
  ∀ s t : State, Memory.wf s → CommandFree s → s.lc = .active → exec .clear s = .next t →
    -- (a)
    (∀ i < s.inst.numPixels, readPixel t i = some ⟨0, 0, 0, 0⟩) ∧
    -- (b)
    exec .clear t = .next t ∧
    -- (c)
    (∀ order : List Nat, order.Perm (List.range s.inst.numPixels) →
      execAll (order.map fun i => .setPixel i 0 0 0 0) s = .next t) ∧
    -- (d)
    (∀ u v : State, Invariant u → u.inst = s.inst → u.lc = .uninitialized →
      exec .start u = .next v → v.host = .returned .ok → v.pb = t.pb)

/-! ## REFRESH and TERMINATE -/

/-- REFRESH, step 1 and step 2 (rule R158). A failed transfer's count agrees with the bytes already shifted
out, `x.pos` (assumption log entry 8). -/
def Obligations.RefreshResult : Prop :=
  (∀ s, CommandFree s → s.lc ≠ .active →
    exec .refresh s = .next { s with host := .returned .rejState }) ∧
  (∀ s, CommandFree s → s.lc = .active →
    exec .refresh s = .next
      { s with host := .waiting, busy := true,
               xfer := some ⟨.refresh, assemble s.inst s.pb, 0⟩ }) ∧
  (∀ s x, s.busy = true → s.xfer = some x → x.kind = .refresh → s.host = .waiting →
    xferDone .complete s = .next
      { s with txlog := s.txlog ++ [⟨.refresh, x.frame, .complete, x.frame⟩], busy := false,
               xfer := none, host := .returned .ok }) ∧
  (∀ s x k, s.busy = true → s.xfer = some x → x.kind = .refresh → s.host = .waiting →
    x.pos ≤ k → k < s.inst.frameLength →
    ∃ t cleanup, xferDone (.short k) s = .next t ∧ t.lc = .fault ∧ t.fcause = .xferShort ∧
      t.host = .returned .fatal ∧ (∀ r ∈ cleanup, r.kind = .cleanup) ∧
      t.txlog = s.txlog ++ ⟨.refresh, x.frame, .short k, x.frame.take k⟩ :: cleanup) ∧
  (∀ s x m, s.busy = true → s.xfer = some x → x.kind = .refresh → s.host = .waiting →
    x.pos ≤ m → m ≤ s.inst.frameLength →
    ∃ t cleanup, xferDone (.ioerr m) s = .next t ∧ t.lc = .fault ∧ t.fcause = .xferIo ∧
      t.host = .returned .fatal ∧ (∀ r ∈ cleanup, r.kind = .cleanup) ∧
      t.txlog = s.txlog ++ ⟨.refresh, x.frame, .ioerr, x.frame.take m⟩ :: cleanup)

/-- TERMINATE, step 1 and step 2 (rule R204). A host inside the command gets the status; after a serviced
request there is none to answer (assumption log entry 4). -/
def Obligations.TerminateResult : Prop :=
  (∀ s, CommandFree s → s.lc = .active →
    exec .terminate s = .next
      { s with termEn := false, termReq := false,
               pb := List.replicate s.inst.numPixels ⟨0, 0, 0, 0⟩, host := .waiting, busy := true,
               xfer := some ⟨.final, darkFrame s.inst, 0⟩ }) ∧
  (∀ s x, s.busy = true → s.xfer = some x → x.kind = .final →
    xferDone .complete s = .next
      { s with txlog := s.txlog ++ [⟨.final, x.frame, .complete, x.frame⟩], busy := false,
               xfer := none, opened := false, lc := .closed,
               host := if s.host = .waiting then .returned .ok else s.host }) ∧
  (∀ s x k, s.busy = true → s.xfer = some x → x.kind = .final → x.pos ≤ k →
    k < s.inst.frameLength →
    xferDone (.short k) s = .next
      { s with txlog := s.txlog ++ [⟨.final, x.frame, .short k, x.frame.take k⟩], busy := false,
               xfer := none, opened := false, termEn := false, termReq := false,
               pb := List.replicate s.inst.numPixels ⟨0, 0, 0, 0⟩, lc := .fault,
               fcause := .xferShort,
               host := if s.host = .waiting then .returned .fatal else s.host }) ∧
  (∀ s x m, s.busy = true → s.xfer = some x → x.kind = .final → x.pos ≤ m →
    m ≤ s.inst.frameLength →
    xferDone (.ioerr m) s = .next
      { s with txlog := s.txlog ++ [⟨.final, x.frame, .ioerr, x.frame.take m⟩], busy := false,
               xfer := none, opened := false, termEn := false, termReq := false,
               pb := List.replicate s.inst.numPixels ⟨0, 0, 0, 0⟩, lc := .fault,
               fcause := .xferIo,
               host := if s.host = .waiting then .returned .fatal else s.host })

/-- Rule R206: TERMINATE outside Active does nothing and returns OK, and so would its CLOSE; TERMINATE, its
transfer, TERMINATE from Active sends one dark frame. In Uninitialized this is the spec's own choice (decision
D7, log entry 16). -/
def Obligations.TerminateIdempotent : Prop :=
  (∀ s : State, s.opened = false → closeBus s = s) ∧
  (∀ s, CommandFree s → s.lc ≠ .active →
    exec .terminate s = .next { s with host := .returned .ok }) ∧
  (∀ s, CommandFree s → s.lc = .active →
    ∃ t, andThen (andThen (exec .terminate s) (xferDone .complete)) (exec .terminate) = .next t ∧
      t.lc = .closed ∧ t.host = .returned .ok ∧
      t.txlog = s.txlog ++ [⟨.final, darkFrame s.inst, .complete, darkFrame s.inst⟩])

/-! ## Acceptance -/

/-- Rule R222: which command each lifecycle state accepts; every other pairing returns REJ_STATE and changes
nothing. Most of the table is the spec's own choice (decisions D5 to D7, log entry 16). -/
def Obligations.AcceptanceTable : Prop :=
  ∀ (s : State) (i : Instr), CommandFree s →
    let accepted : Prop :=
      s.lc = .uninitialized ∧ (i = .start ∨ i = .terminate) ∨
      s.lc = .active ∧ ((∃ idx r g b w, i = .setPixel idx r g b w) ∨ i = .clear ∨ i = .refresh ∨
        i = .terminate) ∨
      (s.lc = .closed ∨ s.lc = .fault) ∧ i = .terminate
    (¬ accepted → exec i s = .next { s with host := .returned .rejState }) ∧
    (accepted → ∃ t, exec i s = .next t ∧ t.host ≠ .returned .rejState) ∧
    (s.lc ≠ .active → i = .terminate → exec i s = .next { s with host := .returned .ok })

/-- Rule R270: a command presented while a transfer is in flight is refused, never given a value; so is any
command word. That the host has no such move is the spec's own choice (decision D12, log entry 9). -/
def Obligations.CommandRefusedInFlight : Prop :=
  ∀ s : State, s.busy = true →
    (∀ i, exec i s = .refused .commandWhileBusy) ∧
    (∀ x, presentWord x s = .refused .commandWhileBusy)

/-- What each command leaves unchanged when it answers a next state: every field but those named, and
every pixel but the one SETPIXEL names. -/
def Obligations.CommandFrames : Prop :=
  (∀ s t, Invariant s → exec .start s = .next t →
    t = { s with opened := t.opened, pb := t.pb, termEn := t.termEn, lc := t.lc,
                 fcause := t.fcause, host := t.host, inbox := t.inbox, draws := t.draws }) ∧
  (∀ s t idx r g b w, exec (.setPixel idx r g b w) s = .next t →
    t = { s with pb := t.pb, host := t.host } ∧
    ∀ j, j ≠ idx → readPixel t j = readPixel s j) ∧
  (∀ s t, exec .clear s = .next t → t = { s with pb := t.pb, host := t.host }) ∧
  (∀ s t, exec .refresh s = .next t →
    t = { s with xfer := t.xfer, busy := t.busy, host := t.host }) ∧
  (∀ s t, exec .terminate s = .next t →
    t = { s with termEn := t.termEn, termReq := t.termReq, pb := t.pb, xfer := t.xfer,
                 busy := t.busy, host := t.host })

/-! ## The bus and the fatal sequence -/

/-- The byte position (rule R30): a shifted byte advances `XFER.pos` by 1 and changes nothing else, and
never takes it beyond `L`. -/
def Obligations.ByteShifts : Prop :=
  ∀ (s : State) (x : Transfer), s.busy = true → s.xfer = some x →
    (x.pos < s.inst.frameLength →
      shiftOut s = .next { s with xfer := some ⟨x.kind, x.frame, x.pos + 1⟩ }) ∧
    (s.inst.frameLength ≤ x.pos → shiftOut s = .refused .impossibleBusReport)

/-- XFER_DONE (rules R176, R177): enabled exactly when a transfer is in flight; the record with its emitted
prefix is logged first; only `complete` is not fatal. The bound `x.pos` on a failed count is the model's
reading (assumption log entry 8). -/
def Obligations.TransferEnds : Prop :=
  (∀ s e, s.busy = false → xferDone e s = .refused .noTransferInFlight) ∧
  (∀ s x e, s.busy = true → s.xfer = some x → possibleEnd s.inst.frameLength x.pos e = false →
    xferDone e s = .refused .impossibleBusReport) ∧
  (∀ s x e, s.busy = true → s.xfer = some x → possibleEnd s.inst.frameLength x.pos e = true →
    ∃ t cleanup, xferDone e s = .next t ∧
      t.txlog = s.txlog ++
        ⟨recordKind x.kind, x.frame, reportedResult e, emittedBytes x.frame e⟩ :: cleanup ∧
      t.busy = false ∧ t.xfer = none ∧
      (e = .complete → cleanup = [] ∧ t.fcause = s.fcause ∧ t.pb = s.pb) ∧
      (∀ k, e = .short k → t.lc = .fault ∧ t.fcause = .xferShort) ∧
      (∀ m, e = .ioerr m → t.lc = .fault ∧ t.fcause = .xferIo))

/-- Rules R231 and R232: the fatal sequence as one step. -/
def Obligations.FatalSequence : Prop :=
  ∀ (cause : FatalCause) (s : State),
    ∃ cleanup : List TxRecord,
      (fatal cause s).inst = s.inst ∧
      (fatal cause s).termEn = false ∧ (fatal cause s).termReq = false ∧
      (fatal cause s).busy = false ∧ (fatal cause s).xfer = none ∧
      (fatal cause s).pb = List.replicate s.inst.numPixels ⟨0, 0, 0, 0⟩ ∧
      (fatal cause s).opened = false ∧ (fatal cause s).fcause = cause ∧
      (fatal cause s).lc = .fault ∧
      (fatal cause s).host = (if s.host = .waiting then .returned .fatal else s.host) ∧
      (fatal cause s).txlog = s.txlog ++ cleanup ∧
      (cleanup = [] ∨ ∃ e, possibleEnd s.inst.frameLength 0 e = true ∧
        cleanup = [⟨.cleanup, darkFrame s.inst, reportedResult e,
          emittedBytes (darkFrame s.inst) e⟩]) ∧
      (s.opened = false ∨ (∀ x, s.xfer = some x → x.kind = .final) → cleanup = []) ∧
      (s.inst.cleanup = .skip → cleanup = []) ∧
      (s.inst.cleanup = .attempt → s.opened = true →
        (∃ x, s.xfer = some x ∧ x.kind = .refresh) → cleanup ≠ [])

/-! ## The termination request -/

/-- The latch (rule R240): a raise sets `TERMREQ` while `TERM_EN = 1` and is lost otherwise, with nothing else
changed. -/
def Obligations.RequestLatched : Prop :=
  ∀ (s : State) (rest : List Event), serviceDue s = false → s.inbox = .termReq :: rest →
    (s.termEn = true → step s = .next { s with termReq := true, inbox := rest }) ∧
    (s.termEn = false → step s = .next { s with inbox := rest })

/-- Service (rules R241, R245 (a)): a pending request with no transfer in flight is served at once, whatever
the outside agents would do next, and no command is accepted before it. -/
def Obligations.RequestServedFirst : Prop :=
  ∀ s : State, s.termReq = true → s.lc = .active → s.busy = false →
    step s = .next
      { s with termEn := false, termReq := false,
               pb := List.replicate s.inst.numPixels ⟨0, 0, 0, 0⟩, busy := true,
               xfer := some ⟨.final, darkFrame s.inst, 0⟩ } ∧
    (∀ i, exec i s = .refused .commandBeforeService)

/-- A request raised any number of times during a REFRESH (rule R241 (b)): the frame is sent whole, the
REFRESH returns OK, one dark frame follows, and the block is Closed. -/
def Obligations.RequestDuringRefresh : Prop :=
  ∀ (s : State) (x : Transfer) (n : Nat) (rest : List Event), Invariant s → s.xfer = some x →
    x.kind = .refresh →
    s.inbox = List.replicate (n + 1) .termReq ++ .xferDone .complete :: .xferDone .complete :: rest →
    runSteps (n + 4) s = .next
      { s with
        termEn := false, termReq := false, pb := List.replicate s.inst.numPixels ⟨0, 0, 0, 0⟩,
        busy := false, xfer := none, opened := false, lc := .closed, host := .returned .ok,
        inbox := rest,
        txlog := s.txlog ++
          [⟨.refresh, x.frame, .complete, x.frame⟩,
           ⟨.final, darkFrame s.inst, .complete, darkFrame s.inst⟩] }

/-- A transfer that fails with a request pending (rule R245 (c)): the fatal error wins, the request is
cleared, and no Final record is added. -/
def Obligations.FatalBeatsRequest : Prop :=
  ∀ (s : State) (x : Transfer) (e : BusEnd), s.busy = true → s.xfer = some x →
    x.kind = .refresh → s.termReq = true → possibleEnd s.inst.frameLength x.pos e = true →
    e ≠ .complete →
    ∃ t new, xferDone e s = .next t ∧ t.lc = .fault ∧ t.termReq = false ∧
      t.txlog = s.txlog ++ new ∧ ∀ r ∈ new, r.kind ≠ .final

/-! ## Steps -/

/-- A step in which the host presents a legal word runs the command it decodes to, the word being taken from
the inbox (`withFetchWord` puts one there); an illegal word is rejected. -/
def Obligations.StepRunsDecodedCommand : Prop :=
  (∀ (s : State) (x : CommandWord) (rest : List Event) (i : Instr), serviceDue s = false →
    s.inbox = .command x :: rest → decode x = .ok i →
    step s = exec i { s with inbox := rest }) ∧
  (∀ (s : State) (nbits w : Nat) (i : Instr), serviceDue s = false →
    decodeTableWord nbits w = some i → step (s.withFetchWord nbits w) = exec i s)

/-- With nothing left to do the block idles; in particular a transfer the bus never ends leaves `BUSY = 1` for
ever (rule R227). -/
def Obligations.BlockIdlesAndHangs : Prop :=
  ∀ (s : State) (n : Nat), s.inbox = [] → serviceDue s = false → runSteps n s = .next s

/-- The invariant of rule R43 is kept by every step, from every state that meets it. -/
def Obligations.InvariantKept : Prop :=
  ∀ s t : State, Invariant s → step s = .next t → Invariant t

/-- The invariant holds after reset, whatever the outside agents do next. -/
def Obligations.InvariantAtReset : Prop :=
  ∀ inbox : List Event, Invariant { State.reset with inbox := inbox }

/-- Rule R41: the values the spec gives for reset; the buffer has `N` pixels of unspecified content. -/
def Obligations.ResetValues : Prop :=
  State.reset.pb.length = State.reset.inst.numPixels ∧ State.reset.lc = .uninitialized ∧
  State.reset.opened = false ∧ State.reset.termEn = false ∧ State.reset.termReq = false ∧
  State.reset.busy = false ∧ State.reset.xfer = none ∧ State.reset.fcause = .none ∧
  State.reset.txlog = [] ∧ wireBits State.reset.txlog = [] ∧
  (∀ i : Instr, i ≠ .start →
    exec i State.reset = .next { State.reset with
      host := .returned (if i = .terminate then .ok else .rejState) })

/-- The lifecycle transitions (rule R27), each with the move that makes it. -/
def Obligations.LifecycleTransitions : Prop :=
  ∀ s t : State, Invariant s → step s = .next t →
    t.lc = s.lc ∨
    (s.lc = .uninitialized ∧ (t.lc = .active ∨ t.lc = .fault ∧ t.fcause = .config) ∧
      ∃ x rest, s.inbox = .command x :: rest ∧ decode x = .ok .start) ∨
    (s.lc = .active ∧ t.lc = .closed ∧
      ∃ x rest, s.xfer = some x ∧ x.kind = .final ∧ s.inbox = .xferDone .complete :: rest) ∨
    (s.lc = .active ∧ t.lc = .fault ∧
      ∃ e rest, s.xfer ≠ none ∧ e ≠ .complete ∧ s.inbox = .xferDone e :: rest)

/-- Rule R233: Fault is terminal and sticky. The statuses are the spec's own choice (decisions D5 to D7, log
entry 16). -/
def Obligations.FaultSticky : Prop :=
  ∀ s : State, Invariant s → s.lc = .fault →
    (∀ t, step s = .next t → t.lc = .fault ∧ t.fcause = s.fcause ∧ t.opened = false ∧
      t.pb = List.replicate s.inst.numPixels ⟨0, 0, 0, 0⟩ ∧ t.txlog = s.txlog) ∧
    (∀ i, exec i s = .next
      { s with host := .returned (if i = .terminate then .ok else .rejState) })

/-- Rule R207: after termination, for ever. The status REJ_STATE is the spec's own choice (decision D5, log
entry 16). -/
def Obligations.ClosedForEver : Prop :=
  ∀ s : State, Invariant s → s.lc = .closed →
    s.pb = List.replicate s.inst.numPixels ⟨0, 0, 0, 0⟩ ∧
    (∀ i, i ≠ .terminate → exec i s = .next { s with host := .returned .rejState }) ∧
    (∀ n t, runSteps n s = .next t →
      t.lc = .closed ∧ t.pb = s.pb ∧ t.busy = false ∧ t.txlog = s.txlog)

/-- `TXLOG` only grows (rule R38), by at most two records a step. -/
def Obligations.TxlogOnlyGrows : Prop :=
  ∀ s t : State, step s = .next t → ∃ new, t.txlog = s.txlog ++ new ∧ new.length ≤ 2

/-- The writers of the Pixel Buffer (rule R23): a step that changes it is an accepted SETPIXEL, a CLEAR, a
START, the start of termination or a failed transfer, and all but the first zero it. -/
def Obligations.PixelBufferWriters : Prop :=
  ∀ s t : State, step s = .next t → t.pb ≠ s.pb →
    (∃ x rest idx r g b w, s.inbox = .command x :: rest ∧
      decode x = .ok (.setPixel idx r g b w) ∧ s.lc = .active ∧ idx < s.inst.numPixels ∧
      t.pb = s.pb.set idx ⟨r, g, b, w⟩) ∨
    (t.pb = List.replicate s.inst.numPixels ⟨0, 0, 0, 0⟩ ∧
      (serviceDue s = true ∨
       (∃ x rest i, s.inbox = .command x :: rest ∧ decode x = .ok i ∧
          (i = .start ∨ i = .clear ∨ i = .terminate)) ∨
       (∃ e rest, s.inbox = .xferDone e :: rest ∧ e ≠ .complete)))

/-- The parameters are constants: no step changes them (rule R20). -/
def Obligations.ParametersConstant : Prop :=
  ∀ (s t : State) (n : Nat), runSteps n s = .next t → t.inst = s.inst

/-- `k + 1` REFRESH commands, each followed by the end of its transfer, add exactly `k + 1` records with the
same frame, that of the buffer, and change nothing else of the block (rules R67 (d), R159 (a) and (b)). -/
def Obligations.RefreshesNeverCoalesced : Prop :=
  ∀ (s : State) (k : Nat) (rest : List Event), CommandFree s → s.lc = .active → s.xfer = none →
    s.inbox =
      (List.replicate (k + 1)
        [Event.command 0x0400000000000000, Event.xferDone .complete]).flatten ++ rest →
    runSteps (2 * (k + 1)) s = .next
      { s with
        inbox := rest, host := .returned .ok,
        txlog := s.txlog ++ List.replicate (k + 1)
          ⟨.refresh, assembledFrame s, .complete, assembledFrame s⟩ }

/-- With `CH = 3` the W fields are never observable (rule R26): clearing all of them before a step or after it
gives the same state, `TXLOG` included. -/
def Obligations.UnusedWUnobservable : Prop :=
  ∀ s : State, s.inst.channels = .three →
    andThen (step s) (fun t => .next (withoutW t)) =
      andThen (step (withoutW s)) (fun t => .next (withoutW t))

/-- The shutdown guarantee (rule R266): whenever a step leaves Active the bus is released and the buffer zero,
and if it ends in Closed a whole dark frame was sent last. -/
def Obligations.ShutdownReleasesBus : Prop :=
  ∀ s t : State, Invariant s → step s = .next t → s.lc = .active → t.lc ≠ .active →
    t.opened = false ∧ t.pb = List.replicate t.inst.numPixels ⟨0, 0, 0, 0⟩ ∧
    (t.lc = .closed → ∃ before, t.txlog =
      before ++ [⟨.final, darkFrame t.inst, .complete, darkFrame t.inst⟩])

/-! ## Timing -/

/-- Rule R282: the padding's low bus bits and their time, the requirement on it, and the smallest legal `PAD`,
for every positive real `F_BUS` and `T_RESET`. -/
def Obligations.LeastPadding : Prop :=
  ∀ (inst : Params) (tm : BusTiming),
    serializeBytes (zeroBytes inst.pad) = List.replicate (8 * inst.pad) false ∧
    paddingTime inst tm = 8 * inst.pad * clockPeriod tm ∧
    (PaddingSuffices inst tm ↔ tm.resetTime.val ≤ 8 * inst.pad * clockPeriod tm) ∧
    (PaddingSuffices inst tm ↔ leastPad tm ≤ inst.pad) ∧
    leastPad tm = ⌈tm.resetTime.val * tm.busClock.val / 8⌉₊

/-- Rule R281: the durations of a logical bit in units of `T_CLK`, for every positive real `F_BUS`. -/
def Obligations.PulseTimes : Prop :=
  ∀ tm : BusTiming,
    clockPeriod tm = 1 / tm.busClock.val ∧ 0 < clockPeriod tm ∧
    bitPeriod tm = 4 * clockPeriod tm ∧
    highTime tm false = clockPeriod tm ∧ lowTime tm false = 3 * clockPeriod tm ∧
    highTime tm true = 3 * clockPeriod tm ∧ lowTime tm true = clockPeriod tm ∧
    highTime tm false = bitPeriod tm / 4 ∧ highTime tm true = 3 * bitPeriod tm / 4

/-- The time of one completed frame on the bus (rule R283): its bus bits, each of one `T_CLK`; and the bound on
the refresh rate, its inverse; for every positive real `F_BUS`. -/
def Obligations.FrameTimeOnBus : Prop :=
  ∀ (inst : Params) (tm : BusTiming) (pb : List Pixel), pb.length = inst.numPixels →
    frameTime inst tm = (serializeBytes (assemble inst pb)).length * clockPeriod tm ∧
    frameTime inst tm =
      (8 * (inst.pad + 4 * inst.channels.count * inst.numPixels) : Nat) * clockPeriod tm ∧
    refreshRateBound inst tm = tm.busClock.val / (8 * inst.frameLength : Nat) ∧
    refreshRateBound inst tm * frameTime inst tm = 1

/-- A step in which no service is due is the listed move of an outside agent, and nothing else: the bus's end of a
transfer, the bus's byte, the interrupt source's raise, a word of the host, and an answer to no question
(rules R17, R99, R176, R254). What these moves do is said of `xferDone`, `shiftOut` and `exec` elsewhere. The list
of moves is the model's (log entry 5), and so is refusing an answer that nothing asked for (log entry 10). -/
def Obligations.StepTakesListedMove : Prop :=
  ∀ (s : State) (rest : List Event), serviceDue s = false →
    (∀ r, s.inbox = .xferDone r :: rest → step s = xferDone r { s with inbox := rest }) ∧
    (s.inbox = .shiftByte :: rest → step s = shiftOut { s with inbox := rest }) ∧
    (s.inbox = .termReq :: rest →
      step s = .next { s with termReq := s.termEn || s.termReq, inbox := rest }) ∧
    (∀ x, s.inbox = .command x :: rest → step s = presentWord x { s with inbox := rest }) ∧
    (∀ x e, s.inbox = .command x :: rest → decode x = .error e →
      (s.busy = false → step s = .next { s with inbox := rest, host := .returned .rejIllegal }) ∧
      (s.busy = true → step s = .refused .commandWhileBusy)) ∧
    (∀ a, s.inbox = .openAnswer a :: rest → step s = .refused .unaskedAnswer) ∧
    (∀ a, s.inbox = .cleanupChoice a :: rest → step s = .refused .unaskedAnswer) ∧
    (∀ r, s.inbox = .cleanupEnd r :: rest → step s = .refused .unaskedAnswer)

/-- One REFRESH as a run of steps, from the host's word over any number `n` of shifted bytes to any end of the
transfer that those bytes leave possible (rules R30, R158, R176, R231). The bound `n` on a failed count is the
model's reading (log entry 8). -/
def Obligations.RefreshRun : Prop :=
  ∀ (s : State) (n : Nat) (e : BusEnd) (rest : List Event), CommandFree s → s.lc = .active →
    n ≤ s.inst.frameLength → possibleEnd s.inst.frameLength n e = true →
    s.inbox = .command 0x0400000000000000 :: (List.replicate n .shiftByte ++ .xferDone e :: rest) →
    runSteps (n + 1) s = .next
      { s with inbox := .xferDone e :: rest, host := .waiting, busy := true,
               xfer := some ⟨.refresh, assembledFrame s, n⟩ } ∧
    ∃ t cleanup, runSteps (n + 2) s = .next t ∧
      t.txlog = s.txlog ++
        ⟨.refresh, assembledFrame s, reportedResult e, emittedBytes (assembledFrame s) e⟩ :: cleanup ∧
      (∀ r ∈ cleanup, r.kind = .cleanup) ∧ t.busy = false ∧ t.xfer = none ∧
      (e = .complete → cleanup = [] ∧ t.lc = .active ∧ t.pb = s.pb ∧ t.host = .returned .ok) ∧
      (∀ k, e = .short k → t.lc = .fault ∧ t.fcause = .xferShort ∧ t.host = .returned .fatal) ∧
      (∀ m, e = .ioerr m → t.lc = .fault ∧ t.fcause = .xferIo ∧ t.host = .returned .fatal)
end

