-- ==== Sys2Proof/Laws/Decode.lean ====
section
/-! SUPPORT. Laws/Decode.lean: the fields of a command word (rule R96), one lemma per field. -/

namespace Sys2Proof

theorem wellFormed_setPixel_iff (idx : Nat) (r g b w : Byte) :
    WellFormed (.setPixel idx r g b w) ↔ idx < 2 ^ 24 :=
  decide_eq_true_iff

/-- Which field holds bit `k` of a command word. -/
theorem commandWord_getLsbD (op : Byte) (idx : BitVec 24) (r g b w : Byte) (k : Nat) :
    (commandWord op idx r g b w).getLsbD k =
      if k < 8 then w.getLsbD k else if k < 16 then b.getLsbD (k - 8)
      else if k < 24 then g.getLsbD (k - 16) else if k < 32 then r.getLsbD (k - 24)
      else if k < 56 then idx.getLsbD (k - 32) else op.getLsbD (k - 56) := by
  simp only [commandWord, BitVec.getLsbD_append, Nat.sub_sub]
  split_ifs <;> first | rfl | omega

@[simp] theorem opField_commandWord (op : Byte) (idx : BitVec 24) (r g b w : Byte) :
    opField (commandWord op idx r g b w) = op := by
  apply BitVec.eq_of_getLsbD_eq
  intro k hk
  rw [opField, BitVec.getLsbD_extractLsb', commandWord_getLsbD, if_neg (by omega), if_neg (by omega),
    if_neg (by omega), if_neg (by omega), if_neg (by omega)]
  simp [hk]

@[simp] theorem idxField_commandWord (op : Byte) (idx : BitVec 24) (r g b w : Byte) :
    idxField (commandWord op idx r g b w) = idx := by
  apply BitVec.eq_of_getLsbD_eq
  intro k hk
  rw [idxField, BitVec.getLsbD_extractLsb', commandWord_getLsbD, if_neg (by omega), if_neg (by omega),
    if_neg (by omega), if_neg (by omega)]
  simp [hk, show 32 + k < 56 by omega]

@[simp] theorem rField_commandWord (op : Byte) (idx : BitVec 24) (r g b w : Byte) :
    rField (commandWord op idx r g b w) = r := by
  apply BitVec.eq_of_getLsbD_eq
  intro k hk
  rw [rField, BitVec.getLsbD_extractLsb', commandWord_getLsbD, if_neg (by omega), if_neg (by omega),
    if_neg (by omega)]
  simp [hk, show 24 + k < 32 by omega]

@[simp] theorem gField_commandWord (op : Byte) (idx : BitVec 24) (r g b w : Byte) :
    gField (commandWord op idx r g b w) = g := by
  apply BitVec.eq_of_getLsbD_eq
  intro k hk
  rw [gField, BitVec.getLsbD_extractLsb', commandWord_getLsbD, if_neg (by omega), if_neg (by omega)]
  simp [hk, show 16 + k < 24 by omega]

@[simp] theorem bField_commandWord (op : Byte) (idx : BitVec 24) (r g b w : Byte) :
    bField (commandWord op idx r g b w) = b := by
  apply BitVec.eq_of_getLsbD_eq
  intro k hk
  rw [bField, BitVec.getLsbD_extractLsb', commandWord_getLsbD, if_neg (by omega)]
  simp [hk, show 8 + k < 16 by omega]

@[simp] theorem wField_commandWord (op : Byte) (idx : BitVec 24) (r g b w : Byte) :
    wField (commandWord op idx r g b w) = w := by
  apply BitVec.eq_of_getLsbD_eq
  intro k hk
  rw [wField, BitVec.getLsbD_extractLsb', commandWord_getLsbD]
  simp [hk]

/-- A word is put together from its six fields. -/
theorem commandWord_fields (x : CommandWord) :
    commandWord (opField x) (idxField x) (rField x) (gField x) (bField x) (wField x) = x := by
  apply BitVec.eq_of_getLsbD_eq
  intro k hk
  rw [commandWord_getLsbD]
  simp only [opField, idxField, rField, gField, bField, wField, BitVec.getLsbD_extractLsb']
  split_ifs
  · simp [*]
  · simp [show k - 8 < 8 by omega, show 8 + (k - 8) = k by omega]
  · simp [show k - 16 < 8 by omega, show 16 + (k - 16) = k by omega]
  · simp [show k - 24 < 8 by omega, show 24 + (k - 24) = k by omega]
  · simp [show k - 32 < 24 by omega, show 32 + (k - 32) = k by omega]
  · simp [show k - 56 < 8 by omega, show 56 + (k - 56) = k by omega]

/-- The reserved bits are zero exactly when bits 55:0 are (rule R99). -/
theorem reservedField_eq_zero_iff (x : CommandWord) :
    reservedField x = 0 ↔ ∀ k < 56, x.getLsbD k = false := by
  constructor
  · intro h k hk
    have hb := congrArg (fun y : BitVec 56 => y.getLsbD k) h
    simpa [reservedField, BitVec.getLsbD_extractLsb', hk] using hb
  · intro h
    apply BitVec.eq_of_getLsbD_eq
    intro k hk
    rw [reservedField, BitVec.getLsbD_extractLsb']
    simp [h k hk]

/-- A word with no bit of 55:0 set is its operation code and zeros. -/
theorem eq_commandWord_of_reserved_zero {x : CommandWord} (h : reservedField x = 0) :
    x = commandWord (opField x) 0 0 0 0 0 := by
  rw [reservedField_eq_zero_iff] at h
  apply BitVec.eq_of_getLsbD_eq
  intro k hk
  rw [commandWord_getLsbD]
  by_cases hk' : k < 56
  · rw [h k hk']
    split_ifs <;> simp
  · rw [if_neg (by omega), if_neg (by omega), if_neg (by omega), if_neg (by omega),
      if_neg hk', opField, BitVec.getLsbD_extractLsb']
    simp [show k - 56 < 8 by omega, show 56 + (k - 56) = k by omega]

end Sys2Proof
end

