-- ==== Sys2Proof/Laws/State.lean ====
section
/-! SUPPORT. Laws/State.lean: for each named state update, what every field of State is after it; a
later proof cites these and unfolds no record update. -/

namespace Sys2Proof.Machine

variable (s : State)

/-! ### writePixel -/

@[simp] theorem writePixel_inst (i : Nat) (p : Pixel) : (writePixel i p s).inst = s.inst := rfl
@[simp] theorem writePixel_pb (i : Nat) (p : Pixel) : (writePixel i p s).pb = s.pb.set i p := rfl
@[simp] theorem writePixel_lc (i : Nat) (p : Pixel) : (writePixel i p s).lc = s.lc := rfl
@[simp] theorem writePixel_opened (i : Nat) (p : Pixel) : (writePixel i p s).opened = s.opened := rfl
@[simp] theorem writePixel_termEn (i : Nat) (p : Pixel) : (writePixel i p s).termEn = s.termEn := rfl
@[simp] theorem writePixel_termReq (i : Nat) (p : Pixel) : (writePixel i p s).termReq = s.termReq := rfl
@[simp] theorem writePixel_busy (i : Nat) (p : Pixel) : (writePixel i p s).busy = s.busy := rfl
@[simp] theorem writePixel_xfer (i : Nat) (p : Pixel) : (writePixel i p s).xfer = s.xfer := rfl
@[simp] theorem writePixel_fcause (i : Nat) (p : Pixel) : (writePixel i p s).fcause = s.fcause := rfl
@[simp] theorem writePixel_txlog (i : Nat) (p : Pixel) : (writePixel i p s).txlog = s.txlog := rfl
@[simp] theorem writePixel_host (i : Nat) (p : Pixel) : (writePixel i p s).host = s.host := rfl
@[simp] theorem writePixel_inbox (i : Nat) (p : Pixel) : (writePixel i p s).inbox = s.inbox := rfl
@[simp] theorem writePixel_draws (i : Nat) (p : Pixel) : (writePixel i p s).draws = s.draws := rfl

/-! ### zeroPixels -/

@[simp] theorem zeroPixels_inst : (zeroPixels s).inst = s.inst := rfl
@[simp] theorem zeroPixels_pb : (zeroPixels s).pb = zeroBuffer s.inst.numPixels := rfl
@[simp] theorem zeroPixels_lc : (zeroPixels s).lc = s.lc := rfl
@[simp] theorem zeroPixels_opened : (zeroPixels s).opened = s.opened := rfl
@[simp] theorem zeroPixels_termEn : (zeroPixels s).termEn = s.termEn := rfl
@[simp] theorem zeroPixels_termReq : (zeroPixels s).termReq = s.termReq := rfl
@[simp] theorem zeroPixels_busy : (zeroPixels s).busy = s.busy := rfl
@[simp] theorem zeroPixels_xfer : (zeroPixels s).xfer = s.xfer := rfl
@[simp] theorem zeroPixels_fcause : (zeroPixels s).fcause = s.fcause := rfl
@[simp] theorem zeroPixels_txlog : (zeroPixels s).txlog = s.txlog := rfl
@[simp] theorem zeroPixels_host : (zeroPixels s).host = s.host := rfl
@[simp] theorem zeroPixels_inbox : (zeroPixels s).inbox = s.inbox := rfl
@[simp] theorem zeroPixels_draws : (zeroPixels s).draws = s.draws := rfl

/-! ### issue -/

@[simp] theorem issue_inst : (issue s).inst = s.inst := rfl
@[simp] theorem issue_pb : (issue s).pb = s.pb := rfl
@[simp] theorem issue_lc : (issue s).lc = s.lc := rfl
@[simp] theorem issue_opened : (issue s).opened = s.opened := rfl
@[simp] theorem issue_termEn : (issue s).termEn = s.termEn := rfl
@[simp] theorem issue_termReq : (issue s).termReq = s.termReq := rfl
@[simp] theorem issue_busy : (issue s).busy = s.busy := rfl
@[simp] theorem issue_xfer : (issue s).xfer = s.xfer := rfl
@[simp] theorem issue_fcause : (issue s).fcause = s.fcause := rfl
@[simp] theorem issue_txlog : (issue s).txlog = s.txlog := rfl
@[simp] theorem issue_host : (issue s).host = .waiting := rfl
@[simp] theorem issue_inbox : (issue s).inbox = s.inbox := rfl
@[simp] theorem issue_draws : (issue s).draws = s.draws := rfl

/-! ### answerHost -/

@[simp] theorem answerHost_inst (st : Status) : (answerHost st s).inst = s.inst := rfl
@[simp] theorem answerHost_pb (st : Status) : (answerHost st s).pb = s.pb := rfl
@[simp] theorem answerHost_lc (st : Status) : (answerHost st s).lc = s.lc := rfl
@[simp] theorem answerHost_opened (st : Status) : (answerHost st s).opened = s.opened := rfl
@[simp] theorem answerHost_termEn (st : Status) : (answerHost st s).termEn = s.termEn := rfl
@[simp] theorem answerHost_termReq (st : Status) : (answerHost st s).termReq = s.termReq := rfl
@[simp] theorem answerHost_busy (st : Status) : (answerHost st s).busy = s.busy := rfl
@[simp] theorem answerHost_xfer (st : Status) : (answerHost st s).xfer = s.xfer := rfl
@[simp] theorem answerHost_fcause (st : Status) : (answerHost st s).fcause = s.fcause := rfl
@[simp] theorem answerHost_txlog (st : Status) : (answerHost st s).txlog = s.txlog := rfl
@[simp] theorem answerHost_host (st : Status) : (answerHost st s).host = answeredPort st s.host := rfl
@[simp] theorem answerHost_inbox (st : Status) : (answerHost st s).inbox = s.inbox := rfl
@[simp] theorem answerHost_draws (st : Status) : (answerHost st s).draws = s.draws := rfl

/-! ### countDraw -/

@[simp] theorem countDraw_inst : (countDraw s).inst = s.inst := rfl
@[simp] theorem countDraw_pb : (countDraw s).pb = s.pb := rfl
@[simp] theorem countDraw_lc : (countDraw s).lc = s.lc := rfl
@[simp] theorem countDraw_opened : (countDraw s).opened = s.opened := rfl
@[simp] theorem countDraw_termEn : (countDraw s).termEn = s.termEn := rfl
@[simp] theorem countDraw_termReq : (countDraw s).termReq = s.termReq := rfl
@[simp] theorem countDraw_busy : (countDraw s).busy = s.busy := rfl
@[simp] theorem countDraw_xfer : (countDraw s).xfer = s.xfer := rfl
@[simp] theorem countDraw_fcause : (countDraw s).fcause = s.fcause := rfl
@[simp] theorem countDraw_txlog : (countDraw s).txlog = s.txlog := rfl
@[simp] theorem countDraw_host : (countDraw s).host = s.host := rfl
@[simp] theorem countDraw_inbox : (countDraw s).inbox = s.inbox := rfl
@[simp] theorem countDraw_draws : (countDraw s).draws = s.draws + 1 := rfl

/-! ### openBus -/

@[simp] theorem openBus_inst : (openBus s).inst = s.inst := rfl
@[simp] theorem openBus_pb : (openBus s).pb = s.pb := rfl
@[simp] theorem openBus_lc : (openBus s).lc = s.lc := rfl
@[simp] theorem openBus_opened : (openBus s).opened = true := rfl
@[simp] theorem openBus_termEn : (openBus s).termEn = s.termEn := rfl
@[simp] theorem openBus_termReq : (openBus s).termReq = s.termReq := rfl
@[simp] theorem openBus_busy : (openBus s).busy = s.busy := rfl
@[simp] theorem openBus_xfer : (openBus s).xfer = s.xfer := rfl
@[simp] theorem openBus_fcause : (openBus s).fcause = s.fcause := rfl
@[simp] theorem openBus_txlog : (openBus s).txlog = s.txlog := rfl
@[simp] theorem openBus_host : (openBus s).host = s.host := rfl
@[simp] theorem openBus_inbox : (openBus s).inbox = s.inbox := rfl
@[simp] theorem openBus_draws : (openBus s).draws = s.draws := rfl

/-! ### closeBus -/

@[simp] theorem closeBus_inst : (closeBus s).inst = s.inst := rfl
@[simp] theorem closeBus_pb : (closeBus s).pb = s.pb := rfl
@[simp] theorem closeBus_lc : (closeBus s).lc = s.lc := rfl
@[simp] theorem closeBus_opened : (closeBus s).opened = false := rfl
@[simp] theorem closeBus_termEn : (closeBus s).termEn = s.termEn := rfl
@[simp] theorem closeBus_termReq : (closeBus s).termReq = s.termReq := rfl
@[simp] theorem closeBus_busy : (closeBus s).busy = s.busy := rfl
@[simp] theorem closeBus_xfer : (closeBus s).xfer = s.xfer := rfl
@[simp] theorem closeBus_fcause : (closeBus s).fcause = s.fcause := rfl
@[simp] theorem closeBus_txlog : (closeBus s).txlog = s.txlog := rfl
@[simp] theorem closeBus_host : (closeBus s).host = s.host := rfl
@[simp] theorem closeBus_inbox : (closeBus s).inbox = s.inbox := rfl
@[simp] theorem closeBus_draws : (closeBus s).draws = s.draws := rfl

/-! ### transmit -/

@[simp] theorem transmit_inst (k : TransferKind) (f : List Byte) : (transmit k f s).inst = s.inst := rfl
@[simp] theorem transmit_pb (k : TransferKind) (f : List Byte) : (transmit k f s).pb = s.pb := rfl
@[simp] theorem transmit_lc (k : TransferKind) (f : List Byte) : (transmit k f s).lc = s.lc := rfl
@[simp] theorem transmit_opened (k : TransferKind) (f : List Byte) : (transmit k f s).opened = s.opened := rfl
@[simp] theorem transmit_termEn (k : TransferKind) (f : List Byte) : (transmit k f s).termEn = s.termEn := rfl
@[simp] theorem transmit_termReq (k : TransferKind) (f : List Byte) : (transmit k f s).termReq = s.termReq := rfl
@[simp] theorem transmit_busy (k : TransferKind) (f : List Byte) : (transmit k f s).busy = true := rfl
@[simp] theorem transmit_xfer (k : TransferKind) (f : List Byte) : (transmit k f s).xfer = some ⟨k, f, 0⟩ := rfl
@[simp] theorem transmit_fcause (k : TransferKind) (f : List Byte) : (transmit k f s).fcause = s.fcause := rfl
@[simp] theorem transmit_txlog (k : TransferKind) (f : List Byte) : (transmit k f s).txlog = s.txlog := rfl
@[simp] theorem transmit_host (k : TransferKind) (f : List Byte) : (transmit k f s).host = s.host := rfl
@[simp] theorem transmit_inbox (k : TransferKind) (f : List Byte) : (transmit k f s).inbox = s.inbox := rfl
@[simp] theorem transmit_draws (k : TransferKind) (f : List Byte) : (transmit k f s).draws = s.draws := rfl

/-! ### endTransfer -/

@[simp] theorem endTransfer_inst : (endTransfer s).inst = s.inst := rfl
@[simp] theorem endTransfer_pb : (endTransfer s).pb = s.pb := rfl
@[simp] theorem endTransfer_lc : (endTransfer s).lc = s.lc := rfl
@[simp] theorem endTransfer_opened : (endTransfer s).opened = s.opened := rfl
@[simp] theorem endTransfer_termEn : (endTransfer s).termEn = s.termEn := rfl
@[simp] theorem endTransfer_termReq : (endTransfer s).termReq = s.termReq := rfl
@[simp] theorem endTransfer_busy : (endTransfer s).busy = false := rfl
@[simp] theorem endTransfer_xfer : (endTransfer s).xfer = none := rfl
@[simp] theorem endTransfer_fcause : (endTransfer s).fcause = s.fcause := rfl
@[simp] theorem endTransfer_txlog : (endTransfer s).txlog = s.txlog := rfl
@[simp] theorem endTransfer_host : (endTransfer s).host = s.host := rfl
@[simp] theorem endTransfer_inbox : (endTransfer s).inbox = s.inbox := rfl
@[simp] theorem endTransfer_draws : (endTransfer s).draws = s.draws := rfl

/-! ### logRecord -/

@[simp] theorem logRecord_inst (r : TxRecord) : (logRecord r s).inst = s.inst := rfl
@[simp] theorem logRecord_pb (r : TxRecord) : (logRecord r s).pb = s.pb := rfl
@[simp] theorem logRecord_lc (r : TxRecord) : (logRecord r s).lc = s.lc := rfl
@[simp] theorem logRecord_opened (r : TxRecord) : (logRecord r s).opened = s.opened := rfl
@[simp] theorem logRecord_termEn (r : TxRecord) : (logRecord r s).termEn = s.termEn := rfl
@[simp] theorem logRecord_termReq (r : TxRecord) : (logRecord r s).termReq = s.termReq := rfl
@[simp] theorem logRecord_busy (r : TxRecord) : (logRecord r s).busy = s.busy := rfl
@[simp] theorem logRecord_xfer (r : TxRecord) : (logRecord r s).xfer = s.xfer := rfl
@[simp] theorem logRecord_fcause (r : TxRecord) : (logRecord r s).fcause = s.fcause := rfl
@[simp] theorem logRecord_txlog (r : TxRecord) : (logRecord r s).txlog = s.txlog ++ [r] := rfl
@[simp] theorem logRecord_host (r : TxRecord) : (logRecord r s).host = s.host := rfl
@[simp] theorem logRecord_inbox (r : TxRecord) : (logRecord r s).inbox = s.inbox := rfl
@[simp] theorem logRecord_draws (r : TxRecord) : (logRecord r s).draws = s.draws := rfl

/-! ### fatalBlank -/

@[simp] theorem fatalBlank_inst : (fatalBlank s).inst = s.inst := rfl
@[simp] theorem fatalBlank_pb : (fatalBlank s).pb = zeroBuffer s.inst.numPixels := rfl
@[simp] theorem fatalBlank_lc : (fatalBlank s).lc = s.lc := rfl
@[simp] theorem fatalBlank_opened : (fatalBlank s).opened = s.opened := rfl
@[simp] theorem fatalBlank_termEn : (fatalBlank s).termEn = false := rfl
@[simp] theorem fatalBlank_termReq : (fatalBlank s).termReq = false := rfl
@[simp] theorem fatalBlank_busy : (fatalBlank s).busy = false := rfl
@[simp] theorem fatalBlank_xfer : (fatalBlank s).xfer = none := rfl
@[simp] theorem fatalBlank_fcause : (fatalBlank s).fcause = s.fcause := rfl
@[simp] theorem fatalBlank_txlog : (fatalBlank s).txlog = s.txlog := rfl
@[simp] theorem fatalBlank_host : (fatalBlank s).host = s.host := rfl
@[simp] theorem fatalBlank_inbox : (fatalBlank s).inbox = s.inbox := rfl
@[simp] theorem fatalBlank_draws : (fatalBlank s).draws = s.draws := rfl

/-! ### fatalHalt -/

@[simp] theorem fatalHalt_inst (c : FatalCause) : (fatalHalt c s).inst = s.inst := rfl
@[simp] theorem fatalHalt_pb (c : FatalCause) : (fatalHalt c s).pb = s.pb := rfl
@[simp] theorem fatalHalt_lc (c : FatalCause) : (fatalHalt c s).lc = .fault := rfl
@[simp] theorem fatalHalt_opened (c : FatalCause) : (fatalHalt c s).opened = false := rfl
@[simp] theorem fatalHalt_termEn (c : FatalCause) : (fatalHalt c s).termEn = s.termEn := rfl
@[simp] theorem fatalHalt_termReq (c : FatalCause) : (fatalHalt c s).termReq = s.termReq := rfl
@[simp] theorem fatalHalt_busy (c : FatalCause) : (fatalHalt c s).busy = s.busy := rfl
@[simp] theorem fatalHalt_xfer (c : FatalCause) : (fatalHalt c s).xfer = s.xfer := rfl
@[simp] theorem fatalHalt_fcause (c : FatalCause) : (fatalHalt c s).fcause = c := rfl
@[simp] theorem fatalHalt_txlog (c : FatalCause) : (fatalHalt c s).txlog = s.txlog := rfl
@[simp] theorem fatalHalt_host (c : FatalCause) : (fatalHalt c s).host = answeredPort .fatal s.host := rfl
@[simp] theorem fatalHalt_inbox (c : FatalCause) : (fatalHalt c s).inbox = s.inbox := rfl
@[simp] theorem fatalHalt_draws (c : FatalCause) : (fatalHalt c s).draws = s.draws := rfl

/-! ### beginTermination -/

@[simp] theorem beginTermination_inst : (beginTermination s).inst = s.inst := rfl
@[simp] theorem beginTermination_pb : (beginTermination s).pb = zeroBuffer s.inst.numPixels := rfl
@[simp] theorem beginTermination_lc : (beginTermination s).lc = s.lc := rfl
@[simp] theorem beginTermination_opened : (beginTermination s).opened = s.opened := rfl
@[simp] theorem beginTermination_termEn : (beginTermination s).termEn = false := rfl
@[simp] theorem beginTermination_termReq : (beginTermination s).termReq = false := rfl
@[simp] theorem beginTermination_busy : (beginTermination s).busy = true := rfl
@[simp] theorem beginTermination_xfer : (beginTermination s).xfer = some ⟨.final, darkFrame s.inst, 0⟩ := rfl
@[simp] theorem beginTermination_fcause : (beginTermination s).fcause = s.fcause := rfl
@[simp] theorem beginTermination_txlog : (beginTermination s).txlog = s.txlog := rfl
@[simp] theorem beginTermination_host : (beginTermination s).host = s.host := rfl
@[simp] theorem beginTermination_inbox : (beginTermination s).inbox = s.inbox := rfl
@[simp] theorem beginTermination_draws : (beginTermination s).draws = s.draws := rfl

/-! ### finishTermination -/

@[simp] theorem finishTermination_inst : (finishTermination s).inst = s.inst := rfl
@[simp] theorem finishTermination_pb : (finishTermination s).pb = s.pb := rfl
@[simp] theorem finishTermination_lc : (finishTermination s).lc = .closed := rfl
@[simp] theorem finishTermination_opened : (finishTermination s).opened = false := rfl
@[simp] theorem finishTermination_termEn : (finishTermination s).termEn = s.termEn := rfl
@[simp] theorem finishTermination_termReq : (finishTermination s).termReq = s.termReq := rfl
@[simp] theorem finishTermination_busy : (finishTermination s).busy = s.busy := rfl
@[simp] theorem finishTermination_xfer : (finishTermination s).xfer = s.xfer := rfl
@[simp] theorem finishTermination_fcause : (finishTermination s).fcause = s.fcause := rfl
@[simp] theorem finishTermination_txlog : (finishTermination s).txlog = s.txlog := rfl
@[simp] theorem finishTermination_host : (finishTermination s).host = s.host := rfl
@[simp] theorem finishTermination_inbox : (finishTermination s).inbox = s.inbox := rfl
@[simp] theorem finishTermination_draws : (finishTermination s).draws = s.draws := rfl

/-! ### startActive -/

@[simp] theorem startActive_inst : (startActive s).inst = s.inst := rfl
@[simp] theorem startActive_pb : (startActive s).pb = zeroBuffer s.inst.numPixels := rfl
@[simp] theorem startActive_lc : (startActive s).lc = .active := rfl
@[simp] theorem startActive_opened : (startActive s).opened = true := rfl
@[simp] theorem startActive_termEn : (startActive s).termEn = true := rfl
@[simp] theorem startActive_termReq : (startActive s).termReq = s.termReq := rfl
@[simp] theorem startActive_busy : (startActive s).busy = s.busy := rfl
@[simp] theorem startActive_xfer : (startActive s).xfer = s.xfer := rfl
@[simp] theorem startActive_fcause : (startActive s).fcause = s.fcause := rfl
@[simp] theorem startActive_txlog : (startActive s).txlog = s.txlog := rfl
@[simp] theorem startActive_host : (startActive s).host = s.host := rfl
@[simp] theorem startActive_inbox : (startActive s).inbox = s.inbox := rfl
@[simp] theorem startActive_draws : (startActive s).draws = s.draws := rfl

/-! ### placeWord -/

@[simp] theorem placeWord_inst (x : CommandWord) : (placeWord x s).inst = s.inst := rfl
@[simp] theorem placeWord_pb (x : CommandWord) : (placeWord x s).pb = s.pb := rfl
@[simp] theorem placeWord_lc (x : CommandWord) : (placeWord x s).lc = s.lc := rfl
@[simp] theorem placeWord_opened (x : CommandWord) : (placeWord x s).opened = s.opened := rfl
@[simp] theorem placeWord_termEn (x : CommandWord) : (placeWord x s).termEn = s.termEn := rfl
@[simp] theorem placeWord_termReq (x : CommandWord) : (placeWord x s).termReq = s.termReq := rfl
@[simp] theorem placeWord_busy (x : CommandWord) : (placeWord x s).busy = s.busy := rfl
@[simp] theorem placeWord_xfer (x : CommandWord) : (placeWord x s).xfer = s.xfer := rfl
@[simp] theorem placeWord_fcause (x : CommandWord) : (placeWord x s).fcause = s.fcause := rfl
@[simp] theorem placeWord_txlog (x : CommandWord) : (placeWord x s).txlog = s.txlog := rfl
@[simp] theorem placeWord_host (x : CommandWord) : (placeWord x s).host = s.host := rfl
@[simp] theorem placeWord_inbox (x : CommandWord) : (placeWord x s).inbox = .command x :: s.inbox := rfl
@[simp] theorem placeWord_draws (x : CommandWord) : (placeWord x s).draws = s.draws := rfl

/-! ### The host's port -/

@[simp] theorem answeredPort_waiting (st : Status) : answeredPort st .waiting = .returned st := rfl

theorem answeredPort_of_ne_waiting {h : HostPort} (st : Status) (hw : h ≠ .waiting) :
    answeredPort st h = h := by
  cases h <;> simp_all [answeredPort]

@[simp] theorem answeredPort_ne_waiting (st : Status) (h : HostPort) :
    answeredPort st h ≠ .waiting := by
  cases h <;> simp [answeredPort]

/-! ### raiseRequest -/

theorem raiseRequest_of_enabled {s : State} (h : s.termEn = true) :
    raiseRequest s = { s with termReq := true } := by
  simp [raiseRequest, h]

theorem raiseRequest_of_disabled {s : State} (h : s.termEn = false) : raiseRequest s = s := by
  simp [raiseRequest, h]

/-! ### What the updates read -/

@[simp] theorem assembledFrame_zeroPixels : assembledFrame (zeroPixels s) = darkFrame s.inst := rfl

@[simp] theorem assembledFrame_fatalBlank : assembledFrame (fatalBlank s) = darkFrame s.inst := rfl

end Sys2Proof.Machine
end

