-- ==== Sys2Proof/Laws/Ops.lean ====
section
/-! SUPPORT. Laws/Ops.lean: one lemma per shared operation of Machine/Ops.lean that says once everything
it can do. -/

namespace Sys2Proof.Machine

/-! ### Acceptance -/

theorem serviceDue_iff (s : State) :
    serviceDue s = true ↔ s.termReq = true ∧ s.busy = false ∧ s.lc = .active := by
  simp [serviceDue, and_assoc]

theorem serviceDue_of_busy {s : State} (h : s.busy = true) : serviceDue s = false := by
  simp [serviceDue, h]

theorem serviceDue_of_not_active {s : State} (h : s.lc ≠ .active) : serviceDue s = false := by
  simp [serviceDue, h]

/-- An accepted command answers the next state of its body. -/
theorem whenFree_of_free {s : State} (h : CommandFree s) (body : State → State) :
    whenFree s body = .next (body (issue s)) := by
  simp [whenFree, h.1, h.2]

/-- Everything `whenFree` can answer as a next state. -/
theorem whenFree_next {s t : State} {body : State → State} (h : whenFree s body = .next t) :
    CommandFree s ∧ t = body (issue s) := by
  unfold whenFree at h
  split at h
  · cases h
  · split at h
    · cases h
    · cases h
      rename_i hb hd
      exact ⟨⟨by simpa using hb, by simpa using hd⟩, rfl⟩

theorem requireState_of_eq {s : State} {lc : Lifecycle} (h : s.lc = lc) (body : State → State) :
    requireState lc body s = body s := by
  simp [requireState, h]

theorem requireState_of_ne {s : State} {lc : Lifecycle} (h : s.lc ≠ lc) (body : State → State) :
    requireState lc body s = answerHost .rejState s := by
  simp [requireState, h]

/-- A rejection of an accepted command changes nothing but what the host sees. -/
theorem answerHost_issue (st : Status) (s : State) :
    answerHost st (issue s) = { s with host := .returned st } := rfl

/-! ### Draws: a draw changes nothing but the inbox and the count of free values -/

theorem drawOpenAnswer_cases (s : State) : ∃ accepted inbox draws,
    drawOpenAnswer s = (accepted, { s with inbox := inbox, draws := draws }) := by
  unfold drawOpenAnswer
  split <;> exact ⟨_, _, _, rfl⟩

theorem drawOpenAnswer_issue (s : State) :
    drawOpenAnswer (issue s) = ((drawOpenAnswer s).1, issue (drawOpenAnswer s).2) := by
  unfold drawOpenAnswer
  cases h : s.inbox with
  | nil => simp [issue, countDraw, h]
  | cons e rest => cases e <;> simp [issue, countDraw, h]

theorem drawCleanupAttempted_cases (s : State) : ∃ attempted inbox draws,
    drawCleanupAttempted s = (attempted, { s with inbox := inbox, draws := draws }) := by
  unfold drawCleanupAttempted
  split
  · exact ⟨_, _, _, rfl⟩
  · exact ⟨_, _, _, rfl⟩
  · split <;> exact ⟨_, _, _, rfl⟩

theorem frameLength_pos (inst : Params) : 0 < inst.frameLength := by
  have hc : 0 < inst.channels.count := by cases inst.channels <;> simp [Channels.count]
  have : 0 < inst.numPixels * inst.bytesPerPixel :=
    Nat.mul_pos (Nat.succ_pos _) (Nat.mul_pos hc (by norm_num))
  unfold Params.frameLength
  omega

/-- A free end of a transfer is brought into the set of rule R177. -/
theorem possibleEnd_legalEnd {length : Nat} (h : 0 < length) (e : BusEnd) :
    possibleEnd length 0 (legalEnd length e) = true := by
  cases e with
  | complete => rfl
  | short k => simp [legalEnd, possibleEnd, Nat.mod_lt k h]
  | ioerr m => simpa [legalEnd, possibleEnd] using Nat.lt_succ_iff.mp (Nat.mod_lt m (by omega))

/-- Every member of the set of rule R177 is the legal form of some free end: itself. -/
theorem legalEnd_of_possible {length pos : Nat} {e : BusEnd} (h : possibleEnd length pos e = true) :
    legalEnd length e = e := by
  cases e with
  | complete => rfl
  | short k =>
    simp [possibleEnd] at h
    simp [legalEnd, Nat.mod_eq_of_lt h.2]
  | ioerr m =>
    simp [possibleEnd] at h
    simp [legalEnd, Nat.mod_eq_of_lt (Nat.lt_succ_of_le h.2)]

theorem drawCleanupEnd_cases (s : State) : ∃ e inbox draws,
    drawCleanupEnd s = (e, { s with inbox := inbox, draws := draws }) ∧
      possibleEnd s.inst.frameLength 0 e = true := by
  have hpos := frameLength_pos s.inst
  unfold drawCleanupEnd
  split
  · split
    · exact ⟨_, _, _, rfl, by assumption⟩
    · exact ⟨_, _, _, rfl, possibleEnd_legalEnd hpos _⟩
  · exact ⟨_, _, _, rfl, possibleEnd_legalEnd hpos _⟩

/-! ### The fatal sequence -/

/-- Everything the cleanup can do: nothing but draws, and at most one record. -/
theorem attemptCleanup_cases (s : State) :
    ∃ inbox draws log, attemptCleanup s =
        { s with inbox := inbox, draws := draws, txlog := s.txlog ++ log } ∧
      (log = [] ∨ ∃ e, possibleEnd s.inst.frameLength 0 e = true ∧
        log = [transferRecord .cleanup (assembledFrame s) e]) := by
  obtain ⟨attempted, ib, n, ha⟩ := drawCleanupAttempted_cases s
  unfold attemptCleanup
  rw [ha]
  cases attempted with
  | false => exact ⟨ib, n, [], by simp, .inl rfl⟩
  | true =>
    obtain ⟨e, ib', n', he, hp⟩ := drawCleanupEnd_cases { s with inbox := ib, draws := n }
    simp only [if_true, he]
    exact ⟨ib', n', _, rfl, .inr ⟨e, hp, rfl⟩⟩

/-- The policy decides whether a cleanup can be attempted (rule R232). -/
theorem attemptCleanup_of_skip {s : State} (h : s.inst.cleanup = .skip) : attemptCleanup s = s := by
  simp [attemptCleanup, drawCleanupAttempted, h]

theorem attemptCleanup_of_attempt {s : State} (h : s.inst.cleanup = .attempt) :
    attemptCleanup s =
      logRecord (transferRecord .cleanup (assembledFrame (drawCleanupEnd s).2) (drawCleanupEnd s).1)
        (drawCleanupEnd s).2 := by
  simp [attemptCleanup, drawCleanupAttempted, h]

/-- Everything the fatal sequence can do. -/
theorem fatal_cases (c : FatalCause) (s : State) :
    ∃ inbox draws log, fatal c s =
        { s with
          pb := zeroBuffer s.inst.numPixels, lc := .fault, opened := false, termEn := false,
          termReq := false, busy := false, xfer := none, fcause := c,
          txlog := s.txlog ++ log, host := answeredPort .fatal s.host,
          inbox := inbox, draws := draws } ∧
      (log = [] ∨ (s.opened = true ∧ transferOrigin s = some .refresh ∧
        s.inst.cleanup ≠ .skip ∧
        ∃ e, possibleEnd s.inst.frameLength 0 e = true ∧
          log = [transferRecord .cleanup (darkFrame s.inst) e])) := by
  unfold fatal
  by_cases h : s.opened = true ∧ transferOrigin s = some .refresh
  · simp only [h, and_self, if_true]
    by_cases hk : s.inst.cleanup = .skip
    · rw [attemptCleanup_of_skip (by simpa using hk)]
      exact ⟨s.inbox, s.draws, [], by simp; rfl, .inl rfl⟩
    · obtain ⟨ib, n, log, heq, hlog⟩ := attemptCleanup_cases (fatalBlank s)
      refine ⟨ib, n, log, by rw [heq]; rfl, hlog.imp id fun he => ?_⟩
      exact ⟨trivial, trivial, hk, he⟩
  · simp only [h, if_false]
    exact ⟨s.inbox, s.draws, [], by simp; rfl, .inl rfl⟩

/-! ### The bus's moves -/

theorem inFlight_eq_some {s : State} {x : Transfer} :
    inFlight s = some x ↔ s.busy = true ∧ s.xfer = some x := by
  unfold inFlight
  split <;> simp_all

/-- Everything XFER_DONE can answer as a next state. -/
theorem xferDone_next {s t : State} {e : BusEnd} (h : xferDone e s = .next t) :
    ∃ x, s.busy = true ∧ s.xfer = some x ∧ possibleEnd s.inst.frameLength x.pos e = true ∧
      t = afterTransfer x e s := by
  unfold xferDone at h
  split at h
  · cases h
  · rename_i x hx
    split at h
    · cases h
      obtain ⟨hb, hxf⟩ := inFlight_eq_some.mp hx
      exact ⟨x, hb, hxf, by assumption, rfl⟩
    · cases h

theorem xferDone_of_inFlight {s : State} {x : Transfer} {e : BusEnd} (hb : s.busy = true)
    (hx : s.xfer = some x) (he : possibleEnd s.inst.frameLength x.pos e = true) :
    xferDone e s = .next (afterTransfer x e s) := by
  simp [xferDone, inFlight, hb, hx, he]

/-- Everything a shifted byte can do. -/
theorem shiftOut_next {s t : State} (h : shiftOut s = .next t) :
    ∃ x, s.busy = true ∧ s.xfer = some x ∧ x.pos < s.inst.frameLength ∧
      t = { s with xfer := some { x with pos := x.pos + 1 } } := by
  unfold shiftOut at h
  split at h
  · cases h
  · rename_i x hx
    split at h
    · cases h
      obtain ⟨hb, hxf⟩ := inFlight_eq_some.mp hx
      exact ⟨x, hb, hxf, by assumption, rfl⟩
    · cases h

theorem afterTransfer_refresh_complete {x : Transfer} (h : x.kind = .refresh) (s : State) :
    afterTransfer x .complete s =
      { s with
        txlog := s.txlog ++ [transferRecord .refresh x.frame .complete], busy := false, xfer := none,
        host := answeredPort .ok s.host } := by
  simp only [afterTransfer, h, continueCommand, recordKind]
  rfl

theorem afterTransfer_final_complete {x : Transfer} (h : x.kind = .final) (s : State) :
    afterTransfer x .complete s =
      { s with
        txlog := s.txlog ++ [transferRecord .final x.frame .complete], busy := false, xfer := none,
        opened := false, lc := .closed, host := answeredPort .ok s.host } := by
  simp only [afterTransfer, h, continueCommand, recordKind]
  rfl

end Sys2Proof.Machine
end

