-- ==== Sys2Proof/Laws/Signal.lean ====
section
/-! SUPPORT. Laws/Signal.lean: the small lemmas of the Signal Encoder and the serialiser. -/

namespace Sys2Proof.Machine

@[simp] theorem encodeChannel_length (v : Byte) : (encodeChannel v).length = 4 := rfl

@[simp] theorem unnib_nib (b : Bool) : unnib (nib b) = some b := by cases b <;> rfl

@[simp] theorem unpair_pairByte (f s : Bool) : unpair (pairByte f s) = some (f, s) := by
  cases f <;> cases s <;> rfl

theorem pairByte_mem_signalBytes (f s : Bool) : pairByte f s ∈ signalBytes := by
  cases f <;> cases s <;> decide

/-- The four signal bytes are exactly the codes of the four pairs (rule R131). -/
theorem mem_signalBytes_iff (y : Byte) : y ∈ signalBytes ↔ ∃ f s, y = pairByte f s := by
  constructor
  · intro h
    simp only [signalBytes, List.mem_cons, List.not_mem_nil, or_false] at h
    rcases h with rfl | rfl | rfl | rfl
    · exact ⟨false, false, rfl⟩
    · exact ⟨false, true, rfl⟩
    · exact ⟨true, false, rfl⟩
    · exact ⟨true, true, rfl⟩
  · rintro ⟨f, s, rfl⟩
    exact pairByte_mem_signalBytes f s

theorem encodeChannel_mem_signalBytes {v y : Byte} (h : y ∈ encodeChannel v) : y ∈ signalBytes := by
  simp only [encodeChannel, List.mem_cons, List.not_mem_nil, or_false] at h
  rcases h with rfl | rfl | rfl | rfl <;> exact pairByte_mem_signalBytes _ _

/-- The iterative form of rule R132 is the same function. -/
theorem encodeByShifting_eq (v : Byte) : encodeByShifting 4 v = encodeChannel v := by
  simp [encodeByShifting, encodeChannel]

@[simp] theorem serializeBytes_append (f g : List Byte) :
    serializeBytes (f ++ g) = serializeBytes f ++ serializeBytes g := by
  simp [serializeBytes]

@[simp] theorem serializeByte_length (y : Byte) : (serializeByte y).length = 8 := rfl

theorem serializeByte_pairByte (f s : Bool) :
    serializeByte (pairByte f s) = logicalBitOnWire f ++ logicalBitOnWire s := by
  cases f <;> cases s <;> decide

/-- One channel value on the wire is `1 b b 0` for each of its bits (rule R138). -/
theorem serializeBytes_encodeChannel (v : Byte) :
    serializeBytes (encodeChannel v) = channelOnWire v := by
  simp [serializeBytes, encodeChannel, serializeByte_pairByte, channelOnWire, bitsFromTop]

end Sys2Proof.Machine
end

