-- ==== Sys2Proof/Laws/Frame.lean ====
section
/-! SUPPORT. Laws/Frame.lean: the small lemmas of the Frame Assembler, and that every memory operation
keeps the Pixel Buffer's canonical form (exactly `N` pixels, rule R22). -/

namespace Sys2Proof.Machine

@[simp] theorem zeroBuffer_length (n : Nat) : (zeroBuffer n).length = n := by simp [zeroBuffer]

@[simp] theorem zeroBytes_length (n : Nat) : (zeroBytes n).length = n := by simp [zeroBytes]

theorem channelValues_length (ch : Channels) (p : Pixel) : (channelValues ch p).length = ch.count := by
  cases ch <;> rfl

theorem pixelBytes_length (ch : Channels) (p : Pixel) : (pixelBytes ch p).length = ch.count * 4 := by
  simp [pixelBytes, channelValues_length]

@[simp] theorem payload_nil (ch : Channels) : payload ch [] = [] := rfl

@[simp] theorem payload_cons (ch : Channels) (p : Pixel) (pb : List Pixel) :
    payload ch (p :: pb) = pixelBytes ch p ++ payload ch pb := by simp [payload]

theorem payload_length (ch : Channels) (pb : List Pixel) :
    (payload ch pb).length = pb.length * (ch.count * 4) := by
  induction pb with
  | nil => simp
  | cons p pb ih => simp [pixelBytes_length, ih]; ring

theorem mem_payload_signalBytes {ch : Channels} {pb : List Pixel} {y : Byte}
    (h : y ∈ payload ch pb) : y ∈ signalBytes := by
  simp only [payload, pixelBytes, List.mem_flatMap] at h
  obtain ⟨_, _, _, _, hy⟩ := h
  exact encodeChannel_mem_signalBytes hy

/-! ### The canonical form of the Pixel Buffer -/

theorem Memory.wf_writePixel {s : State} (h : Memory.wf s) (i : Nat) (p : Pixel) :
    Memory.wf (writePixel i p s) := by simpa [Memory.wf] using h

theorem Memory.wf_zeroPixels (s : State) : Memory.wf (zeroPixels s) := by simp [Memory.wf]

theorem Memory.wf_reset : Memory.wf State.reset := by simp [Memory.wf, State.reset]

/-! ### Reads and writes of one pixel -/

theorem readPixel_writePixel_same {s : State} {i : Nat} (h : i < s.pb.length) (p : Pixel) :
    readPixel (writePixel i p s) i = some p := by
  simp [readPixel, h]

theorem readPixel_writePixel_other {s : State} {i j : Nat} (h : j ≠ i) (p : Pixel) :
    readPixel (writePixel i p s) j = readPixel s j := by
  simp [readPixel, Ne.symm h]

theorem readPixel_zeroPixels {s : State} {i : Nat} (h : i < s.inst.numPixels) :
    readPixel (zeroPixels s) i = some Pixel.zero := by
  simp [readPixel, zeroBuffer, h]

end Sys2Proof.Machine
end

