-- ==== Sys2Proof/Laws/PerInstr.lean ====
section
/-! SUPPORT. Laws/PerInstr.lean: statements made for every command, one lemma per constructor. -/

namespace Sys2Proof.Laws.EncodedRow

/-- The command's word selects exactly one row of the table of rule R97, that of its mnemonic. -/
def Statement (i : Instr) : Prop :=
  ((opcodeRows.filter fun row => row.selects (encode i)).map OpcodeRow.mnemonic) = [i.mnemonic]

theorem start : Statement .start := by unfold Statement; decide

theorem clear : Statement .clear := by unfold Statement; decide

theorem refresh : Statement .refresh := by unfold Statement; decide

theorem terminate : Statement .terminate := by unfold Statement; decide

/-- A word is masked to its operation code by the mask of SETPIXEL. -/
theorem selects_setPixel {x : CommandWord} (h : opField x = 0x02) :
    ((opcodeRows.filter fun row => row.selects x).map OpcodeRow.mnemonic) = ["SETPIXEL"] := by
  have top : ∀ k, k < 8 → x.getLsbD (56 + k) = (0x02 : Byte).getLsbD k := by
    intro k hk
    rw [← h, opField, BitVec.getLsbD_extractLsb']
    simp [hk]
  have sel : x &&& 0xFF00000000000000#64 = 0x0200000000000000#64 := by
    apply BitVec.eq_of_getLsbD_eq
    intro k hk
    rw [BitVec.getLsbD_and]
    by_cases hlow : k < 56
    · have a : (0xFF00000000000000#64).getLsbD k = false := by
        interval_cases k <;> decide
      have b : (0x0200000000000000#64).getLsbD k = false := by
        interval_cases k <;> decide
      rw [a, b, Bool.and_false]
    · obtain ⟨j, rfl⟩ : ∃ j, k = 56 + j := ⟨k - 56, by omega⟩
      have hj : j < 8 := by omega
      rw [top j hj]
      interval_cases j <;> decide
  have ne : ∀ m : CommandWord, m.getLsbD 56 = true ∨ m.getLsbD 58 = true → x ≠ m := by
    rintro m hm rfl
    rcases hm with hm | hm
    · exact absurd (hm.symm.trans (top 0 (by omega))) (by decide)
    · exact absurd (hm.symm.trans (top 2 (by omega))) (by decide)
  have n1 := ne 0x0100000000000000 (by decide)
  have n3 := ne 0x0300000000000000 (by decide)
  have n4 := ne 0x0400000000000000 (by decide)
  have n5 := ne 0x0500000000000000 (by decide)
  have full : ∀ m : CommandWord, x &&& 0xFFFFFFFFFFFFFFFF#64 = m ↔ x = m := by
    intro m
    have : x &&& 0xFFFFFFFFFFFFFFFF#64 = x := by
      have : (0xFFFFFFFFFFFFFFFF#64) = BitVec.allOnes 64 := by decide
      rw [this, BitVec.and_allOnes]
    rw [this]
  have no : ∀ name (m : CommandWord), x ≠ m →
      OpcodeRow.selects ⟨name, m, 0xFFFFFFFFFFFFFFFF⟩ x = false := by
    intro name m hm
    simpa [OpcodeRow.selects] using (full m).not.mpr hm
  have yes : OpcodeRow.selects ⟨"SETPIXEL", 0x0200000000000000, 0xFF00000000000000⟩ x = true := by
    simpa [OpcodeRow.selects] using sel
  simp only [opcodeRows, List.filter_cons, no _ _ n1, no _ _ n3, no _ _ n4, no _ _ n5, yes]
  rfl

theorem setPixel (idx : Nat) (r g b w : Byte) : Statement (.setPixel idx r g b w) :=
  selects_setPixel (opField_commandWord _ _ r g b w)

end Sys2Proof.Laws.EncodedRow
end

