-- ==== Sys2Proof/Laws/Step.lean ====
section
/-! SUPPORT. Laws/Step.lean: what a step can do, said once (an inversion of `exec`, of an outside agent's
move and of `step`), so that no later proof unfolds them. -/

namespace Sys2Proof.Machine

/-- What a command does once it is accepted. -/
def commandBody : Instr → State → State
  | .start => startBody
  | .setPixel idx r g b w => setPixelBody idx r g b w
  | .clear => clearBody
  | .refresh => refreshBody
  | .terminate => terminateBody

/-- Every command is its body behind one acceptance check. -/
theorem exec_eq_whenFree (i : Instr) (s : State) : exec i s = whenFree s (commandBody i) := by
  cases i <;> rfl

/-- A command presented to a free block answers its body's next state. -/
theorem exec_of_free {s : State} (h : CommandFree s) (i : Instr) :
    exec i s = .next (commandBody i (issue s)) := by
  rw [exec_eq_whenFree, whenFree_of_free h]

/-- Everything a command can answer as a next state. -/
theorem exec_next {i : Instr} {s t : State} (h : exec i s = .next t) :
    CommandFree s ∧ t = commandBody i (issue s) :=
  whenFree_next (exec_eq_whenFree i s ▸ h)

/-! ### The bodies, by lifecycle state -/

theorem commandBody_rejected {i : Instr} {s : State} (h : accepts s.lc i = false) :
    commandBody i s = answerHost .rejState s := by
  cases i <;>
    simp_all [accepts, commandBody, startBody, setPixelBody, clearBody, refreshBody, requireState]

theorem startBody_of_uninitialized {s : State} (h : s.lc = .uninitialized) :
    startBody s =
      if (drawOpenAnswer s).1 then answerHost .ok (startActive (drawOpenAnswer s).2)
      else fatal .config (drawOpenAnswer s).2 := by
  simp [startBody, requireState, h]

theorem setPixelBody_in_range {s : State} (h : s.lc = .active) {idx : Nat}
    (hi : idx < s.inst.numPixels) (r g b w : Byte) :
    setPixelBody idx r g b w s = answerHost .ok (writePixel idx ⟨r, g, b, w⟩ s) := by
  simp [setPixelBody, requireState, h, indexInRange, hi, pixelOf]

theorem setPixelBody_out_of_range {s : State} (h : s.lc = .active) {idx : Nat}
    (hi : s.inst.numPixels ≤ idx) (r g b w : Byte) :
    setPixelBody idx r g b w s = answerHost .rejIndex s := by
  simp [setPixelBody, requireState, h, indexInRange, Nat.not_lt.mpr hi]

theorem clearBody_of_active {s : State} (h : s.lc = .active) :
    clearBody s = answerHost .ok (zeroPixels s) := by
  simp [clearBody, requireState, h]

theorem refreshBody_of_active {s : State} (h : s.lc = .active) :
    refreshBody s = transmit .refresh (assembledFrame s) s := by
  simp [refreshBody, requireState, h]

theorem terminateBody_of_active {s : State} (h : s.lc = .active) :
    terminateBody s = beginTermination s := by
  simp [terminateBody, h]

theorem terminateBody_of_not_active {s : State} (h : s.lc ≠ .active) :
    terminateBody s = answerHost .ok s := by
  simp [terminateBody, h]

/-- Everything a command's body can do. -/
theorem commandBody_cases (i : Instr) (s : State) :
    (accepts s.lc i = false ∧ commandBody i s = answerHost .rejState s) ∨
    (i = .start ∧ s.lc = .uninitialized ∧ ∃ ib n,
      (commandBody i s = answerHost .ok (startActive { s with inbox := ib, draws := n }) ∨
       commandBody i s = fatal .config { s with inbox := ib, draws := n })) ∨
    (∃ idx r g b w, i = .setPixel idx r g b w ∧ s.lc = .active ∧
      (idx < s.inst.numPixels ∧
          commandBody i s = answerHost .ok (writePixel idx ⟨r, g, b, w⟩ s) ∨
        s.inst.numPixels ≤ idx ∧ commandBody i s = answerHost .rejIndex s)) ∨
    (i = .clear ∧ s.lc = .active ∧ commandBody i s = answerHost .ok (zeroPixels s)) ∨
    (i = .refresh ∧ s.lc = .active ∧
      commandBody i s = transmit .refresh (assembledFrame s) s) ∨
    (i = .terminate ∧ s.lc = .active ∧ commandBody i s = beginTermination s) ∨
    (i = .terminate ∧ s.lc ≠ .active ∧ commandBody i s = answerHost .ok s) := by
  by_cases hacc : accepts s.lc i = false
  · exact .inl ⟨hacc, commandBody_rejected hacc⟩
  refine .inr ?_
  cases i with
  | start =>
    have hu : s.lc = .uninitialized := by simpa [accepts] using hacc
    obtain ⟨a, ib, n, hd⟩ := drawOpenAnswer_cases s
    refine .inl ⟨rfl, hu, ib, n, ?_⟩
    simp only [commandBody, startBody_of_uninitialized hu, hd]
    cases a <;> simp
  | setPixel idx r g b w =>
    have ha : s.lc = .active := by simpa [accepts] using hacc
    refine .inr (.inl ⟨idx, r, g, b, w, rfl, ha, ?_⟩)
    rcases Nat.lt_or_ge idx s.inst.numPixels with hi | hi
    · exact .inl ⟨hi, setPixelBody_in_range ha hi r g b w⟩
    · exact .inr ⟨hi, setPixelBody_out_of_range ha hi r g b w⟩
  | clear =>
    have ha : s.lc = .active := by simpa [accepts] using hacc
    simp [commandBody, clearBody_of_active ha, ha]
  | refresh =>
    have ha : s.lc = .active := by simpa [accepts] using hacc
    simp [commandBody, refreshBody_of_active ha, ha]
  | terminate =>
    by_cases ha : s.lc = .active
    · simp [commandBody, terminateBody_of_active ha, ha]
    · simp [commandBody, terminateBody_of_not_active ha, ha]

/-! ### The outside agents' moves -/

/-- Everything an outside agent's move can answer as a next state. -/
theorem takeEvent_next {e : Event} {s t : State} (h : takeEvent e s = .next t) :
    (∃ x i, e = .command x ∧ decode x = .ok i ∧ CommandFree s ∧ t = commandBody i (issue s)) ∨
    (∃ x err, e = .command x ∧ decode x = .error err ∧ CommandFree s ∧
      t = { s with host := .returned .rejIllegal }) ∨
    (e = .termReq ∧ t = raiseRequest s) ∨
    (∃ x, e = .shiftByte ∧ s.busy = true ∧ s.xfer = some x ∧ x.pos < s.inst.frameLength ∧
      t = { s with xfer := some { x with pos := x.pos + 1 } }) ∨
    (∃ x r, e = .xferDone r ∧ s.busy = true ∧ s.xfer = some x ∧
      possibleEnd s.inst.frameLength x.pos r = true ∧ t = afterTransfer x r s) := by
  cases e with
  | command x =>
    simp only [takeEvent, presentWord] at h
    cases hd : decode x with
    | ok i =>
      rw [hd] at h
      obtain ⟨hf, ht⟩ := exec_next h
      exact .inl ⟨x, i, rfl, hd, hf, ht⟩
    | error err =>
      rw [hd] at h
      obtain ⟨hf, ht⟩ := whenFree_next h
      exact .inr (.inl ⟨x, err, rfl, hd, hf, ht⟩)
  | termReq => cases h; exact .inr (.inr (.inl ⟨rfl, rfl⟩))
  | shiftByte =>
    obtain ⟨x, hx⟩ := shiftOut_next h
    exact .inr (.inr (.inr (.inl ⟨x, rfl, hx⟩)))
  | xferDone r =>
    obtain ⟨x, hx⟩ := xferDone_next h
    exact .inr (.inr (.inr (.inr ⟨x, r, rfl, hx⟩)))
  | openAnswer _ => cases h
  | cleanupChoice _ => cases h
  | cleanupEnd _ => cases h

/-! ### step -/

/-- A due termination request is served before anything else (rule R241). -/
theorem step_of_due {s : State} (h : serviceDue s = true) : step s = .next (beginTermination s) := by
  simp [step, nextMove, h]

theorem step_of_idle {s : State} (hd : serviceDue s = false) (h : s.inbox = []) :
    step s = .next s := by
  simp [step, nextMove, hd, h]

theorem step_of_event {s : State} {e : Event} {rest : List Event} (hd : serviceDue s = false)
    (h : s.inbox = e :: rest) : step s = takeEvent e { s with inbox := rest } := by
  simp [step, nextMove, hd, h]

/-- Everything a step can answer as a next state. -/
theorem step_next_cases {s t : State} (h : step s = .next t) :
    (serviceDue s = true ∧ t = beginTermination s) ∨
    (serviceDue s = false ∧ s.inbox = [] ∧ t = s) ∨
    (∃ e rest, serviceDue s = false ∧ s.inbox = e :: rest ∧
      takeEvent e { s with inbox := rest } = .next t) := by
  by_cases hd : serviceDue s = true
  · rw [step_of_due hd] at h
    cases h
    exact .inl ⟨hd, rfl⟩
  · simp only [Bool.not_eq_true] at hd
    cases hi : s.inbox with
    | nil =>
      rw [step_of_idle hd hi] at h
      cases h
      exact .inr (.inl ⟨hd, rfl, rfl⟩)
    | cons e rest =>
      rw [step_of_event hd hi] at h
      exact .inr (.inr ⟨e, rest, hd, rfl, h⟩)

/-- The block's fatal errors are next states, so no step stops with a fault (rule R231). -/
theorem step_ne_fault (s : State) (r : Fault) : step s ≠ .fault r := nomatch r

/-! ### andThen and execAll -/

@[simp] theorem andThen_next (s : State) (f : State → Host.Outcome State Fault Refusal) :
    andThen (.next s) f = f s := rfl

@[simp] theorem andThen_refused (r : Refusal) (f : State → Host.Outcome State Fault Refusal) :
    andThen (.refused r) f = .refused r := rfl

@[simp] theorem execAll_nil (s : State) : execAll [] s = .next s := rfl

@[simp] theorem execAll_cons (i : Instr) (rest : List Instr) (s : State) :
    execAll (i :: rest) s = andThen (exec i s) (execAll rest) := rfl

@[simp] theorem runSteps_zero (s : State) : runSteps 0 s = .next s := rfl

theorem runSteps_succ (n : Nat) (s : State) : runSteps (n + 1) s = andThen (step s) (runSteps n) := rfl

/-- A run whose first step is known goes on from its next state. -/
theorem runSteps_of_step {s t : State} (h : step s = .next t) (n : Nat) :
    runSteps (n + 1) s = runSteps n t := by
  rw [runSteps_succ, h, andThen_next]

/-- An induction over a run: what every step keeps, the whole run keeps. -/
theorem runSteps_induction {P : State → Prop} (keep : ∀ s t, P s → step s = .next t → P t) :
    ∀ (n : Nat) (s t : State), P s → runSteps n s = .next t → P t
  | 0, s, t, hs, h => by cases h; exact hs
  | n + 1, s, t, hs, h => by
    rw [runSteps_succ] at h
    cases hstep : step s with
    | next u =>
      rw [hstep] at h
      exact runSteps_induction keep n u t (keep s u hs hstep) h
    | fault r => exact nomatch r
    | refused r =>
      rw [hstep] at h
      cases h

end Sys2Proof.Machine
end

