-- ==== Sys2Proof/Tests/Slice0.lean ====
section
/-! SUPPORT. Tests/Slice0.lean: tests whose expected values are the vectors of spec/95_test_vectors.md and
the examples of the rules, and for each obligation with hypotheses a witness that meets them all. -/

namespace Sys2Proof.Tests

open Sys2Proof Sys2Proof.Machine

/-! ## Helpers: small instances and states -/

/-- An instance with the given `N - 1`, `CH`, `PAD` and cleanup policy. -/
def instOf (last : BitVec 24) (ch : Channels) (pad : Nat) (cl : CleanupPolicy) : Params :=
  ⟨last, ch, pad, 0, 0, 0, cl⟩

/-- `N = 2, CH = 3, PAD = 1`, so `L = 25`. -/
def inst2 : Params := instOf 1 .three 1 .attempt

/-- A state of `inst2` with everything else as after reset. -/
def fresh : State where
  inst := inst2
  pb := [⟨5, 6, 7, 8⟩, ⟨1, 2, 3, 4⟩]
  lc := .uninitialized
  opened := false
  termEn := false
  termReq := false
  busy := false
  xfer := none
  fcause := .none
  txlog := []
  host := .idle
  inbox := []
  draws := 0

/-- Active between two commands. -/
def active : State := { fresh with lc := .active, opened := true, termEn := true, host := .returned .ok }

/-- Active with a REFRESH transfer in flight, two bytes out. -/
def sending : State :=
  { active with busy := true, xfer := some ⟨.refresh, assembledFrame active, 2⟩, host := .waiting }

/-- Active with the final transfer in flight. -/
def ending : State :=
  { active with
    pb := zeroBuffer 2, termEn := false, busy := true, xfer := some ⟨.final, darkFrame inst2, 0⟩,
    host := .waiting }

/-- Closed after a completed final transfer. -/
def closed : State :=
  { fresh with
    pb := zeroBuffer 2, lc := .closed, txlog := [⟨.final, darkFrame inst2, .complete, darkFrame inst2⟩],
    host := .returned .ok }

/-- Fault after a failed START. -/
def failed : State :=
  { fresh with pb := zeroBuffer 2, lc := .fault, fcause := .config, host := .returned .fatal }

/-- A termination request is due for service. -/
def due : State := { active with termReq := true }

/-- The next state of an outcome, if it is one. -/
def nextOf : Host.Outcome State Fault Refusal → Option State
  | .next s => some s
  | _ => none

/-- The refusal of an outcome, if it is one. -/
def refusalOf : Host.Outcome State Fault Refusal → Option Refusal
  | .refused r => some r
  | _ => none

/-- Does the decoder reject the word? -/
def isIllegal (x : CommandWord) : Bool :=
  match decode x with
  | .ok _ => false
  | .error _ => true

/-! ## WellFormed -/

theorem test_wellFormed_largest_index : WellFormed (.setPixel 16777215 0 0 0 0) := by decide
theorem test_wellFormed_refuses_wide_index : ¬ WellFormed (.setPixel 16777216 0 0 0 0) := by decide
theorem test_wellFormed_without_operands :
    WellFormed .start ∧ WellFormed .clear ∧ WellFormed .refresh ∧ WellFormed .terminate := by decide

/-! ## Decoding: words written out bit by bit from rule R96 (op, idx, r, g, b, w) and rule R97 -/

theorem test_decode_start :
    decode (0b00000001_000000000000000000000000_00000000_00000000_00000000_00000000) = .ok .start := rfl
theorem test_decode_setPixel :
    decode (0b00000010_000000000000000000000001_11111111_10000000_00000001_01010101) =
      .ok (.setPixel 1 255 128 1 85) := rfl
theorem test_decode_clear :
    decode (0b00000011_000000000000000000000000_00000000_00000000_00000000_00000000) = .ok .clear := rfl
theorem test_decode_refresh :
    decode (0b00000100_000000000000000000000000_00000000_00000000_00000000_00000000) =
      .ok .refresh := rfl
theorem test_decode_terminate :
    decode (0b00000101_000000000000000000000000_00000000_00000000_00000000_00000000) =
      .ok .terminate := rfl

/-- The other legal words of section 2.6. -/
theorem test_decode_vectors :
    decode 0x0200000010000000 = .ok (.setPixel 0 16 0 0 0) ∧
    decode 0x0200000701020300 = .ok (.setPixel 7 1 2 3 0) ∧
    decode 0x02000002C8643207 = .ok (.setPixel 2 200 100 50 7) ∧
    decode 0x02000000000000AA = .ok (.setPixel 0 0 0 0 170) ∧
    decode 0x020000050A141E00 = .ok (Instr.setPixelWithoutW 5 10 20 30) := ⟨rfl, rfl, rfl, rfl, rfl⟩

/-- The illegal words of section 2.6. -/
theorem test_decode_illegal :
    [0x0000000000000000, 0x0600000000000000, 0xFF00000000000000, 0xFFFFFFFFFFFFFFFF, 0x0100000000000001,
      0x0300000100000000, 0x0480000000000000, 0x0500000000000080].all isIllegal = true := by decide

theorem test_encode_vectors :
    encode (.setPixel 16777215 255 255 255 255) = 0x02FFFFFFFFFFFFFF ∧
    encode (.setPixel 8 1 2 3 0) = 0x0200000801020300 ∧ encode .terminate = 0x0500000000000000 := by
  decide

theorem test_table_word : decodeTableWord 64 0x0300000000000000 = some .clear := by decide

/-! ## The signal code (sections 2.1 to 2.3) -/

theorem test_pairByte : pairByte false true = 0x8E ∧ pairByte true false = 0xE8 := by decide
theorem test_encodeChannel :
    encodeChannel 16 = [0x88, 0x8E, 0x88, 0x88] ∧ encodeChannel 200 = [0xEE, 0x88, 0xE8, 0x88] ∧
    encodeChannel 128 = [0xE8, 0x88, 0x88, 0x88] ∧ encodeChannel 1 = [0x88, 0x88, 0x88, 0x8E] := by
  decide
theorem test_decodeChannel :
    decodeChannel [0xEE, 0x88, 0xE8, 0x88] = some 200 ∧
    decodeChannel [0x00, 0x00, 0x00, 0x00] = none ∧
    decodeChannel [0x88, 0x88, 0x88, 0x8F] = none ∧ decodeChannel [0x88, 0x88, 0x88] = none := by
  decide

/-! ## Frames (section 2.4) and the wire (section 2.5) -/

/-- Vector A1. -/
theorem test_assemble_three :
    assemble (instOf 0 .three 1 .skip) [⟨1, 2, 3, 99⟩] =
      [0x00, 0x88, 0x88, 0x88, 0xE8, 0x88, 0x88, 0x88, 0x8E, 0x88, 0x88, 0x88, 0xEE] := by decide
/-- Vector A2. -/
theorem test_assemble_four :
    assemble (instOf 0 .four 1 .skip) [⟨1, 2, 3, 99⟩] =
      [0x00, 0x88, 0x88, 0x88, 0xE8, 0x88, 0x88, 0x88, 0x8E, 0x88, 0x88, 0x88, 0xEE,
       0x8E, 0xE8, 0x88, 0xEE] := by decide
/-- Vector A6. -/
theorem test_offsets :
    frameOffset (instOf 7 .three 4 .skip) 7 2 3 = 99 ∧
    frameOffset (instOf 1 .four 2 .skip) 1 3 0 = 30 ∧
    frameLocation (instOf 7 .three 4 .skip) 9 = (0, 1, 1) ∧
    frameLocation (instOf 7 .three 4 .skip) 99 = (7, 2, 3) ∧
    (instOf 7 .three 4 .skip).frameLength = 100 := by decide
/-- Rule R187. -/
theorem test_serialize :
    serializeBytes [0x88, 0x8E] =
      [true, false, false, false, true, false, false, false,
       true, false, false, false, true, true, true, false] := by decide
/-- Section 2.5: 24 rising edges in the frame of A1. -/
theorem test_rising_edges :
    risingEdges idleLevel (serializeBytes (assemble (instOf 0 .three 1 .skip) [⟨1, 2, 3, 99⟩])) = 24 := by
  decide

/-! ## One step per command (sections 2.7 to 2.12) -/

/-- L1. -/
theorem test_start_ok :
    (nextOf (exec .start { fresh with inbox := [.openAnswer true] })).map
      (fun t => (t.lc, t.opened, t.termEn, t.pb, t.host)) =
        some (.active, true, true, [⟨0, 0, 0, 0⟩, ⟨0, 0, 0, 0⟩], .returned .ok) := by decide
/-- L2. -/
theorem test_start_fail :
    (nextOf (exec .start { fresh with inbox := [.openAnswer false] })).map
      (fun t => (t.lc, t.opened, t.fcause, t.pb, t.host)) =
        some (.fault, false, .config, [⟨0, 0, 0, 0⟩, ⟨0, 0, 0, 0⟩], .returned .fatal) := by decide
/-- S6, on the last index. -/
theorem test_setPixel_last :
    (nextOf (exec (.setPixel 1 9 8 7 6) active)).map (fun t => (t.pb, t.host)) =
      some ([⟨5, 6, 7, 8⟩, ⟨9, 8, 7, 6⟩], .returned .ok) := by decide
/-- B4: no wrap. -/
theorem test_setPixel_no_wrap :
    (nextOf (exec (.setPixel 16777215 0 0 0 0) active)).map (fun t => (t.pb, t.host)) =
      some ([⟨5, 6, 7, 8⟩, ⟨1, 2, 3, 4⟩], .returned .rejIndex) := by decide
/-- B7. -/
theorem test_clear :
    (nextOf (exec .clear active)).map State.pb = some [⟨0, 0, 0, 0⟩, ⟨0, 0, 0, 0⟩] := by decide
/-- B10. -/
theorem test_clear_closed :
    (nextOf (exec .clear closed)).map State.host = some (.returned .rejState) := by decide
/-- T1. -/
theorem test_refresh :
    (nextOf (exec .refresh active)).map (fun t => (t.busy, t.host, t.txlog)) =
      some (true, .waiting, []) := by decide
/-- L6, its first step. -/
theorem test_terminate :
    (nextOf (exec .terminate active)).map
      (fun t => (t.termEn, t.lc, t.xfer.map Transfer.frame)) =
        some (false, .active, some (0x00 :: List.replicate 24 0x88)) := by decide
/-- L8. -/
theorem test_terminate_closed :
    (nextOf (exec .terminate closed)).map (fun t => (t.lc, t.host, t.txlog.length)) =
      some (.closed, .returned .ok, 1) := by decide

/-! ## The other agents -/

/-- T3, with the cleanup of section 2.11 (`attempt`, cleanup result `short(1)`). -/
theorem test_short_transfer :
    (nextOf (xferDone (.short 5) { sending with inbox := [.cleanupEnd (.short 1)] })).map
      (fun t => (t.fcause, t.host, t.txlog.map fun r => (r.kind, r.result, r.emitted.length))) =
        some (.xferShort, .returned .fatal, [(.refresh, .short 5, 5), (.cleanup, .short 1, 1)]) := by
  decide
/-- A failed final transfer attempts no cleanup (L7). -/
theorem test_short_final :
    (nextOf (xferDone (.short 3) ending)).map
      (fun t => (t.fcause, t.txlog.map fun r => (r.result, r.emitted))) =
        some (.xferShort, [(.short 3, [0x00, 0x88, 0x88])]) := by decide
/-- Q1: lost before START. -/
theorem test_request_lost :
    (nextOf (step { fresh with inbox := [.termReq] })).map State.termReq = some false := by decide
/-- Q2, the service. -/
theorem test_request_served :
    (nextOf (step { due with inbox := [.command 0x0300000000000000] })).map
      (fun t => (t.termReq, t.termEn, t.busy, t.inbox.length)) = some (false, false, true, 1) := by
  decide
/-- Section 2.6: an illegal word in Closed returns REJ_ILLEGAL. -/
theorem test_illegal_word_closed :
    (nextOf (presentWord 0x0600000000000000 closed)).map State.host =
      some (.returned .rejIllegal) := by decide
/-- Rule R270. -/
theorem test_command_in_flight : refusalOf (exec .clear sending) = some .commandWhileBusy := by decide
/-- `short(L)` does not exist (section 2.8). -/
theorem test_short_all_bytes :
    refusalOf (xferDone (.short 25) sending) = some .impossibleBusReport := by decide
/-- A word placed at reset is the next thing the machine runs (rule R41: TERMINATE returns OK). -/
theorem test_fetch_at_reset :
    step (State.reset.withFetchWord 64 0x0500000000000000) =
      .next { State.reset with host := .returned .ok } := rfl

/-! ## Witnesses: the invariant holds of every kind of state -/

theorem shape_dark : FrameShape inst2 (darkFrame inst2) := by
  refine ⟨by decide, by decide, ?_⟩
  show ∀ y ∈ List.drop 1 (darkFrame inst2), y ∈ signalBytes
  decide

theorem witness_Invariant_fresh : Invariant fresh := by
  constructor <;> simp [fresh]
  decide

theorem witness_Invariant_active : Invariant active := by
  constructor <;> simp [active, fresh]
  decide

theorem witness_Invariant_due : Invariant due := by
  constructor <;> simp [due, active, fresh]
  decide

theorem witness_Invariant_sending : Invariant sending := by
  constructor <;> simp [sending, active, fresh] <;> decide

theorem witness_Invariant_ending : Invariant ending := by
  constructor <;> simp [ending, active, fresh] <;> decide

theorem witness_Invariant_closed : Invariant closed := by
  constructor <;> simp [closed, fresh]
  · decide
  · rfl
  · exact ⟨shape_dark, rfl, fun _ => rfl⟩

theorem witness_Invariant_failed : Invariant failed := by
  constructor <;> simp [failed, fresh] <;> decide

/-! ## Witnesses: concrete data that meet the hypotheses of each obligation -/

/-- Two sampled words for the clauses about legal and illegal words. -/
theorem witness_decode_clauses :
    decode 0x02FFFFFFFFFFFFFF = .ok (.setPixel 16777215 255 255 255 255) ∧
    (∃ e, decode 0x0480000000000000 = .error e) := ⟨rfl, _, rfl⟩

theorem witness_DecodeOfEncode : WellFormed (.setPixel 16777215 1 2 3 4) := by decide
theorem witness_EncodeOfDecode : decode 0x0500000000000000 = .ok .terminate := rfl
theorem witness_SetPixelWordLayout : 0 < 2 ^ 24 ∧ 16777215 < 2 ^ 24 := by decide
theorem witness_DecoderSelectsTableRow_legal : decode 0x0100000000000000 = .ok .start := rfl
theorem witness_DecoderSelectsTableRow_illegal : ∃ e, decode 0x0100000000000001 = .error e :=
  ⟨_, rfl⟩
/-- One word for each clause of rule R99, each at the end of its range. -/
theorem witness_IllegalWordsRejected_words :
    opField 0x00FFFFFFFFFFFFFF = 0x00 ∧ 0x06 ≤ (opField 0x0600000000000000).toNat ∧
    0x06 ≤ (opField 0xFF00000000000000).toNat ∧
    (opField 0x0500000000000001 ∈ ([0x01, 0x03, 0x04, 0x05] : List Byte) ∧
      BitVec.getLsbD (0x0500000000000001 : CommandWord) 0 = true) ∧
    (opField 0x0180000000000000 ∈ ([0x01, 0x03, 0x04, 0x05] : List Byte) ∧
      BitVec.getLsbD (0x0180000000000000 : CommandWord) 55 = true) := by decide
theorem witness_IllegalWordsRejected_presented :
    CommandFree closed ∧ ∃ e, decode 0x0600000000000000 = .error e := ⟨by decide, _, rfl⟩

theorem witness_SignalCodeRoundTrip :
    ([0x88, 0x8E, 0xE8, 0xEE] : List Byte).length = 4 ∧
      ∀ b ∈ ([0x88, 0x8E, 0xE8, 0xEE] : List Byte), b ∈ signalBytes := by decide

theorem witness_FrameLengthAndDarkFrame : fresh.pb.length = inst2.numPixels := by decide
theorem witness_FrameOffsets_padding : 0 < inst2.pad ∧ fresh.pb.length = inst2.numPixels := by decide
theorem witness_FrameOffsets_payload :
    fresh.pb[1]? = some ⟨1, 2, 3, 4⟩ ∧ (channelValues inst2.channels ⟨1, 2, 3, 4⟩)[2]? = some 3 ∧
      3 < 4 := by decide
theorem witness_FrameOffsets_location :
    (inst2.pad ≤ 1 ∧ 1 < inst2.frameLength) ∧ inst2.pad ≤ 24 ∧ 24 < inst2.frameLength := by decide
theorem witness_FrameChannelOrder_three : fresh.pb[1]? = some ⟨1, 2, 3, 4⟩ := by decide
theorem witness_FrameChannelOrder_four :
    (instOf 1 .four 1 .skip).channels = .four ∧ fresh.pb[0]? = some ⟨5, 6, 7, 8⟩ := by decide
theorem witness_FrameRecovery_slot :
    fresh.pb.length = inst2.numPixels ∧ fresh.pb[0]? = some ⟨5, 6, 7, 8⟩ ∧
      (channelValues inst2.channels ⟨5, 6, 7, 8⟩)[0]? = some 6 := by decide
/-- With `CH = 3` two buffers that differ in W only have one frame (rule R155 (c)). -/
theorem witness_FrameRecovery_equal :
    ([⟨5, 6, 7, 9⟩, ⟨1, 2, 3, 0⟩] : List Pixel).length = inst2.numPixels ∧
      assemble inst2 fresh.pb = assemble inst2 [⟨5, 6, 7, 9⟩, ⟨1, 2, 3, 0⟩] := by decide
theorem witness_FrameLocality_pixel :
    fresh.pb[1]? = some ⟨1, 2, 3, 4⟩ ∧
      ¬ (frameOffset inst2 1 0 0 ≤ 12 ∧ 12 < frameOffset inst2 2 0 0) ∧
      ¬ (frameOffset inst2 1 0 0 ≤ 25 ∧ 25 < frameOffset inst2 2 0 0) := by decide
/-- Vector A7: only the B slot changes. -/
theorem witness_FrameLocality_slot :
    (∀ s, s ≠ 2 → (channelValues inst2.channels ⟨1, 2, 3, 4⟩)[s]? =
        (channelValues inst2.channels ⟨1, 2, 255, 4⟩)[s]?) ∧
      ¬ (frameOffset inst2 1 2 0 ≤ 20 ∧ 20 < frameOffset inst2 1 2 0 + 4) := by
  refine ⟨fun s hs => ?_, by decide⟩
  match s, hs with
  | 0, _ => rfl
  | 1, _ => rfl
  | 2, h => exact absurd rfl h
  | _ + 3, _ => rfl
theorem witness_FrameOnTheWire_FrameTimeOnBus : fresh.pb.length = inst2.numPixels := by decide

/-- The invariant does not speak of the outside agents' next moves. -/
theorem invariant_inbox {s : State} (h : Invariant s) (ib : List Event) :
    Invariant { s with inbox := ib } :=
  ⟨h.pixels, h.openIffActive, h.busyIffXfer, h.busyActive, h.requestEnabled, h.enabledActive,
    h.causeIffFault, h.terminalDark, h.records, h.flight, h.finalDark, h.activeEnabled, h.refreshWaits,
    h.waitsBusy⟩

/-- `fresh` with the bus's answer to the next OPEN listed. -/
def asked (a : Bool) : State := { fresh with inbox := [.openAnswer a] }

theorem witness_StartResult_ok :
    Invariant (asked true) ∧ (asked true).lc = .uninitialized ∧
      (drawOpenAnswer (asked true)).1 = true :=
  ⟨invariant_inbox witness_Invariant_fresh _, by decide, by decide⟩
theorem witness_StartResult_fail :
    Invariant (asked false) ∧ (asked false).lc = .uninitialized ∧
      (drawOpenAnswer (asked false)).1 = false :=
  ⟨invariant_inbox witness_Invariant_fresh _, by decide, by decide⟩
theorem witness_StartResult_rejected :
    (CommandFree active ∧ active.lc ≠ .uninitialized) ∧
      (CommandFree closed ∧ closed.lc ≠ .uninitialized) ∧
      CommandFree failed ∧ failed.lc ≠ .uninitialized := by decide
theorem witness_OpenAnswerDrawn_listed : (asked true).inbox = .openAnswer true :: [] := rfl
theorem witness_OpenAnswerDrawn_free : ∀ a rest, fresh.inbox ≠ .openAnswer a :: rest := by
  intro a rest h
  cases h
theorem witness_StateAfterStart :
    Invariant (asked true) ∧ (asked true).lc = .uninitialized ∧
      ∃ t, exec .start (asked true) = .next t ∧ t.host = .returned .ok :=
  ⟨invariant_inbox witness_Invariant_fresh _, rfl, _, rfl, rfl⟩

theorem witness_SetPixelResult_rejected : CommandFree closed ∧ closed.lc ≠ .active := by decide
theorem witness_SetPixelResult_out_of_range :
    CommandFree active ∧ active.lc = .active ∧ active.inst.numPixels ≤ 2 := by decide
theorem witness_SetPixelResult_last :
    CommandFree active ∧ active.lc = .active ∧ 1 < active.inst.numPixels := by decide
theorem witness_SetPixelLaws :
    Memory.wf active ∧ CommandFree active ∧ active.lc = .active ∧ 1 < active.inst.numPixels ∧
      (∃ t, exec (.setPixel 1 9 8 7 6) active = .next t) ∧ (0 ≠ 1 ∧ 0 < active.inst.numPixels) ∧
      ¬ (active.inst.pad + 1 * active.inst.channels.count * 4 ≤ 12 ∧
          12 < active.inst.pad + (1 + 1) * active.inst.channels.count * 4) :=
  ⟨by decide, by decide, by decide, by decide, ⟨_, rfl⟩, by decide, by decide⟩
theorem witness_ClearResult :
    (CommandFree failed ∧ failed.lc ≠ .active) ∧ CommandFree active ∧ active.lc = .active := by decide
theorem witness_ClearLaws :
    Memory.wf active ∧ CommandFree active ∧ active.lc = .active ∧
      (∃ t, exec .clear active = .next t) ∧ [1, 0].Perm (List.range active.inst.numPixels) :=
  ⟨by decide, by decide, by decide, ⟨_, rfl⟩, List.Perm.swap 0 1 []⟩
theorem witness_ClearLaws_start :
    Invariant (asked true) ∧ (asked true).inst = active.inst ∧ (asked true).lc = .uninitialized ∧
      ∃ v, exec .start (asked true) = .next v ∧ v.host = .returned .ok :=
  ⟨invariant_inbox witness_Invariant_fresh _, rfl, rfl, _, rfl, rfl⟩

/-- The transfer in flight of `sending`. -/
def frameOut : Transfer := ⟨.refresh, assembledFrame active, 2⟩
/-- The transfer in flight of `ending`. -/
def darkOut : Transfer := ⟨.final, darkFrame inst2, 0⟩

theorem witness_RefreshResult_command :
    (CommandFree closed ∧ closed.lc ≠ .active) ∧ CommandFree active ∧ active.lc = .active := by decide
theorem witness_RefreshResult_complete :
    sending.busy = true ∧ sending.xfer = some frameOut ∧ frameOut.kind = .refresh ∧
      sending.host = .waiting := by decide
/-- The least and the greatest count of a short transfer and of a failed one. -/
theorem witness_RefreshResult_failed :
    (frameOut.pos ≤ 2 ∧ 2 < sending.inst.frameLength) ∧
    (frameOut.pos ≤ 24 ∧ 24 < sending.inst.frameLength) ∧
    (frameOut.pos ≤ 25 ∧ 25 ≤ sending.inst.frameLength) := by decide
theorem witness_TerminateResult_command : CommandFree active ∧ active.lc = .active := by decide
theorem witness_TerminateResult_end :
    ending.busy = true ∧ ending.xfer = some darkOut ∧ darkOut.kind = .final ∧
    (darkOut.pos ≤ 0 ∧ 0 < ending.inst.frameLength) ∧
    (darkOut.pos ≤ 24 ∧ 24 < ending.inst.frameLength) ∧
    (darkOut.pos ≤ 25 ∧ 25 ≤ ending.inst.frameLength) := by decide
theorem witness_TerminateIdempotent :
    closed.opened = false ∧ (CommandFree fresh ∧ fresh.lc ≠ .active) ∧ CommandFree active ∧ active.lc = .active := by decide

theorem witness_AcceptanceTable :
    CommandFree fresh ∧ CommandFree active ∧ CommandFree closed ∧ CommandFree failed ∧
    (accepts fresh.lc .start = true ∧ accepts fresh.lc .terminate = true ∧
      accepts fresh.lc .refresh = false) ∧
    (accepts active.lc .clear = true ∧ accepts active.lc .start = false) ∧
    (accepts closed.lc .terminate = true ∧ accepts closed.lc .refresh = false) ∧
    accepts failed.lc .terminate = true ∧ accepts failed.lc .start = false := by decide
theorem witness_CommandRefusedInFlight : sending.busy = true ∧ ending.busy = true := by decide
theorem witness_CommandFrames :
    (Invariant (asked true) ∧ ∃ t, exec .start (asked true) = .next t) ∧
    (∃ t, exec (.setPixel 2 1 1 1 1) active = .next t) ∧ (∃ t, exec .clear active = .next t) ∧
    (∃ t, exec .refresh active = .next t) ∧ ∃ t, exec .terminate active = .next t :=
  ⟨⟨invariant_inbox witness_Invariant_fresh _, _, rfl⟩, ⟨_, rfl⟩, ⟨_, rfl⟩, ⟨_, rfl⟩, _, rfl⟩

/-- `sending` with all 25 bytes out. -/
def sent : State := { sending with xfer := some { frameOut with pos := 25 } }

theorem witness_ByteShifts_more :
    sending.busy = true ∧ sending.xfer = some frameOut ∧ frameOut.pos < sending.inst.frameLength := by
  decide
theorem witness_ByteShifts_all_out :
    sent.busy = true ∧ sent.xfer = some { frameOut with pos := 25 } ∧ sent.inst.frameLength ≤ 25 := by
  decide
theorem witness_TransferEnds :
    active.busy = false ∧ (sending.busy = true ∧ sending.xfer = some frameOut) ∧
    possibleEnd sending.inst.frameLength frameOut.pos (.short 25) = false ∧
    possibleEnd sending.inst.frameLength frameOut.pos (.short 1) = false ∧
    possibleEnd sending.inst.frameLength frameOut.pos (.ioerr 26) = false ∧
    possibleEnd sending.inst.frameLength frameOut.pos .complete = true ∧
    possibleEnd sending.inst.frameLength frameOut.pos (.short 24) = true ∧
    possibleEnd sending.inst.frameLength frameOut.pos (.ioerr 25) = true := by decide
theorem witness_FatalSequence_no_cleanup :
    fresh.opened = false ∧ (ending.opened = true ∧ ∀ x, ending.xfer = some x → x.kind = .final) := by
  refine ⟨rfl, rfl, ?_⟩
  rintro x ⟨⟩
  rfl
theorem witness_FatalSequence_policy :
    (instOf 1 .three 1 .skip).cleanup = .skip ∧ sending.inst.cleanup = .attempt ∧
      sending.opened = true ∧ ∃ x, sending.xfer = some x ∧ x.kind = .refresh :=
  ⟨rfl, rfl, rfl, frameOut, rfl, rfl⟩

theorem witness_RequestLatched :
    (serviceDue { sending with inbox := [.termReq] } = false ∧ sending.termEn = true) ∧
      serviceDue { fresh with inbox := [.termReq] } = false ∧ fresh.termEn = false := by decide
theorem witness_RequestServedFirst :
    due.termReq = true ∧ due.lc = .active ∧ due.busy = false := by decide
theorem witness_RequestDuringRefresh :
    Invariant { sending with inbox := [.termReq, .termReq, .xferDone .complete, .xferDone .complete] } ∧
      sending.xfer = some frameOut ∧ frameOut.kind = .refresh ∧
      [.termReq, .termReq, .xferDone .complete, .xferDone .complete] =
        List.replicate (1 + 1) Event.termReq ++ .xferDone .complete :: .xferDone .complete :: [] :=
  ⟨invariant_inbox witness_Invariant_sending _, rfl, rfl, rfl⟩

/-- `sending` with a request pending. -/
def sendingDue : State := { sending with termReq := true }

theorem witness_FatalBeatsRequest :
    sendingDue.busy = true ∧ sendingDue.xfer = some frameOut ∧ frameOut.kind = .refresh ∧
      sendingDue.termReq = true ∧
      possibleEnd sendingDue.inst.frameLength frameOut.pos (.short 24) = true := by decide

theorem witness_StepRunsDecodedCommand_listed :
    serviceDue { active with inbox := [.command 0x0200000109080706] } = false ∧
      decode 0x0200000109080706 = .ok (.setPixel 1 9 8 7 6) := ⟨by decide, rfl⟩
theorem witness_StepRunsDecodedCommand_placed :
    serviceDue State.reset = false ∧ decodeTableWord 64 0x0100000000000000 = some .start := by decide
theorem witness_BlockIdlesAndHangs :
    (sending.inbox = [] ∧ serviceDue sending = false) ∧ closed.inbox = [] ∧ serviceDue closed = false := by
  decide
theorem witness_InvariantKept :
    Invariant (asked true) ∧ (∃ t, step sending = .next t) ∧ Invariant sending ∧
      Invariant due ∧ ∃ t, step due = .next t :=
  ⟨invariant_inbox witness_Invariant_fresh _, ⟨_, rfl⟩, witness_Invariant_sending, witness_Invariant_due,
    _, rfl⟩
theorem witness_ResetValues : (Instr.terminate ≠ .start) ∧ (Instr.refresh ≠ .start) := by decide

/-- A START that the bus answers, as a step. -/
def starting : State := { fresh with inbox := [.command 0x0100000000000000, .openAnswer true] }
/-- The end of the final transfer, as a step. -/
def finishing : State := { ending with inbox := [.xferDone .complete] }
/-- A failed transfer, as a step. -/
def failing : State := { sending with inbox := [.xferDone (.ioerr 25), .cleanupEnd .complete] }

theorem witness_LifecycleTransitions_start :
    Invariant starting ∧ ∃ t, step starting = .next t ∧ t.lc ≠ starting.lc :=
  ⟨invariant_inbox witness_Invariant_fresh _, _, rfl, by decide⟩
theorem witness_LifecycleTransitions_final :
    Invariant finishing ∧ ∃ t, step finishing = .next t ∧ t.lc ≠ finishing.lc :=
  ⟨invariant_inbox witness_Invariant_ending _, _, rfl, by decide⟩
theorem witness_LifecycleTransitions_failure :
    Invariant failing ∧ ∃ t, step failing = .next t ∧ t.lc ≠ failing.lc :=
  ⟨invariant_inbox witness_Invariant_sending _, _, rfl, by decide⟩
theorem witness_FaultSticky :
    Invariant failed ∧ failed.lc = .fault ∧ ∃ t, step failed = .next t :=
  ⟨witness_Invariant_failed, rfl, _, rfl⟩
theorem witness_ClosedForEver :
    Invariant closed ∧ closed.lc = .closed ∧ Instr.start ≠ .terminate ∧
      ∃ t, runSteps 1 closed = .next t :=
  ⟨witness_Invariant_closed, rfl, by decide, _, rfl⟩
theorem witness_TxlogOnlyGrows : ∃ t, step failing = .next t ∧ t.txlog.length = 2 :=
  ⟨_, rfl, by decide⟩
theorem witness_PixelBufferWriters_setPixel :
    ∃ t, step { active with inbox := [.command 0x0200000109080706] } = .next t ∧ t.pb ≠ active.pb :=
  ⟨_, rfl, by decide⟩
theorem witness_PixelBufferWriters_zeroed :
    (∃ t, step due = .next t ∧ t.pb ≠ due.pb) ∧ (∃ t, step starting = .next t ∧ t.pb ≠ starting.pb) ∧
      ∃ t, step failing = .next t ∧ t.pb ≠ failing.pb :=
  ⟨⟨_, rfl, by decide⟩, ⟨_, rfl, by decide⟩, _, rfl, by decide⟩
theorem witness_ParametersConstant : ∃ t, runSteps 1 failing = .next t := ⟨_, rfl⟩
/-- `active` about to run one REFRESH to its end. -/
def refreshing : State :=
  { active with inbox := [.command 0x0400000000000000, .xferDone .complete] }

theorem witness_RefreshesNeverCoalesced :
    CommandFree refreshing ∧ refreshing.lc = .active ∧ refreshing.xfer = none ∧
      refreshing.inbox = (List.replicate (0 + 1)
        [Event.command 0x0400000000000000, Event.xferDone .complete]).flatten ++ [] := by decide
theorem witness_UnusedWUnobservable : active.inst.channels = .three := by decide
theorem witness_ShutdownReleasesBus_closed :
    Invariant finishing ∧ finishing.lc = .active ∧
      ∃ t, step finishing = .next t ∧ t.lc ≠ .active ∧ t.lc = .closed :=
  ⟨invariant_inbox witness_Invariant_ending _, rfl, _, rfl, by decide, by decide⟩
theorem witness_ShutdownReleasesBus_fault :
    Invariant failing ∧ failing.lc = .active ∧ ∃ t, step failing = .next t ∧ t.lc ≠ .active :=
  ⟨invariant_inbox witness_Invariant_sending _, rfl, _, rfl, by decide⟩
/-- A bus clock of 3.2 MHz and a reset interval of 50 microseconds. -/
noncomputable def slowBus : BusTiming := ⟨⟨3200000, by norm_num⟩, ⟨1 / 20000, by norm_num⟩⟩

/-- The boundary of rule R282: at 3.2 MHz, 20 zero bytes last exactly a `T_RESET` of 50 microseconds. -/
theorem witness_LeastPadding :
    PaddingSuffices (instOf 0 .three 20 .skip) slowBus ∧
      ¬ PaddingSuffices (instOf 0 .three 19 .skip) slowBus := by
  constructor <;>
    norm_num [PaddingSuffices, paddingTime, clockPeriod, wordWidth, slowBus, instOf]
/-- An irrational clock rate is a `BusTiming` too (rule R10). -/
theorem test_irrational_clock :
    ∃ tm : BusTiming, Irrational tm.busClock.val ∧ clockPeriod tm = 1 / √2 :=
  ⟨⟨⟨√2, by positivity⟩, ⟨1, one_pos⟩⟩, irrational_sqrt_two, rfl⟩

/-- One listed move for each clause, on states with no service due. -/
theorem witness_StepTakesListedMove :
    serviceDue failing = false ∧ failing.inbox = .xferDone (.ioerr 25) :: [.cleanupEnd .complete] ∧
    serviceDue { sending with inbox := [.shiftByte] } = false ∧
    serviceDue { sending with inbox := [.termReq] } = false ∧
    serviceDue { fresh with inbox := [.termReq] } = false ∧
    serviceDue { closed with inbox := [.command 0x0600000000000000] } = false ∧ closed.busy = false ∧
    serviceDue { sending with inbox := [.command 0x0600000000000000] } = false ∧ sending.busy = true ∧
    serviceDue (asked true) = false ∧ (asked true).inbox = .openAnswer true :: [] ∧
    serviceDue { active with inbox := [.cleanupChoice true] } = false ∧
    serviceDue { active with inbox := [.cleanupEnd .complete] } = false := by decide
theorem witness_StepTakesListedMove_illegal : ∃ e, decode 0x0600000000000000 = .error e := ⟨_, rfl⟩
/-- A step of the bus: the third byte goes out (rule R30). -/
theorem test_byte_shifted :
    (nextOf (step { sending with inbox := [.shiftByte] })).map (fun t => t.xfer.map Transfer.pos) =
      some (some 3) := by decide

/-- `active` about to run one REFRESH of which `n` bytes go out before the transfer ends. -/
def running (n : Nat) (e : BusEnd) : State :=
  { active with
    inbox := .command 0x0400000000000000 :: (List.replicate n .shiftByte ++ .xferDone e :: []) }

/-- The boundary ends: nothing out and `short(0)`, `short(L - 1)` at its count, `ioerr` and `complete` with
everything out. -/
theorem witness_RefreshRun :
    CommandFree (running 0 (.short 0)) ∧ (running 0 (.short 0)).lc = .active ∧
    25 = inst2.frameLength ∧ possibleEnd 25 0 (.short 0) = true ∧
    CommandFree (running 24 (.short 24)) ∧ possibleEnd 25 24 (.short 24) = true ∧
    CommandFree (running 25 (.ioerr 25)) ∧ possibleEnd 25 25 (.ioerr 25) = true ∧
    CommandFree (running 25 .complete) ∧ possibleEnd 25 25 .complete = true := by decide

end Sys2Proof.Tests
end

/-! PROOFS. The state after a successful START (rule R42). -/

namespace Sys2Proof.Machine

/-! ### What the invariant says of a state that is not Active, in flight or in Fault -/

/-- Rule R43 (e): a latched request needs `TERM_EN`, which is set only in Active. -/
theorem Invariant.termReq_of_not_active {s : State} (h : Invariant s) (hl : s.lc ≠ .active) :
    s.termReq = false :=
  Bool.eq_false_iff.mpr fun hr => hl (h.enabledActive (h.requestEnabled hr))

theorem Invariant.xfer_of_not_busy {s : State} (h : Invariant s) (hb : s.busy = false) :
    s.xfer = none := by
  by_contra hx
  exact Bool.eq_false_iff.mp hb (h.busyIffXfer.mpr hx)

theorem Invariant.fcause_of_not_fault {s : State} (h : Invariant s) (hl : s.lc ≠ .fault) :
    s.fcause = .none := by
  by_contra hc
  exact hl (h.causeIffFault.mp hc)

/-! ### A START that returned OK -/

/-- The fatal sequence answers a blocked command with FATAL (rule R231). -/
theorem fatal_host (c : FatalCause) (s : State) :
    (fatal c s).host = answeredPort .fatal s.host := by
  obtain ⟨_, _, _, heq, _⟩ := fatal_cases c s
  rw [heq]

/-- A START that returned OK took the success path of rule R200: its other ends, the rejection and
the fatal sequence, answer another status. -/
theorem exec_start_ok {s t : State} (h : exec .start s = .next t) (hok : t.host = .returned .ok) :
    CommandFree s ∧ s.lc = .uninitialized ∧ ∃ ib n,
      t = answerHost .ok (startActive { issue s with inbox := ib, draws := n }) := by
  obtain ⟨hfree, rfl⟩ := exec_next h
  have hu : s.lc = .uninitialized := by
    by_contra hl
    have hrej : accepts (issue s).lc .start = false := by simpa [accepts] using hl
    simp [commandBody_rejected hrej] at hok
  obtain ⟨accepted, ib, n, hdraw⟩ := drawOpenAnswer_cases (issue s)
  have hbody := startBody_of_uninitialized (s := issue s) hu
  rw [hdraw] at hbody
  refine ⟨hfree, hu, ib, n, ?_⟩
  cases accepted with
  | true => exact hbody
  | false =>
    have hfatal : (commandBody .start (issue s)).host = .returned .fatal := by
      rw [commandBody, hbody]
      exact fatal_host .config _
    simp [hfatal] at hok

/-- Settles O17: START's success path writes the buffer, `LC`, `OPEN` and `TERM_EN` itself, and the
invariant gives the fields it leaves alone. -/
theorem stateAfterStart : Obligations.StateAfterStart := by
  unfold Obligations.StateAfterStart
  intro s t hinv hu h hok
  obtain ⟨⟨hbusy, -⟩, -, ib, n, rfl⟩ := exec_start_ok h hok
  have hreq : s.termReq = false := hinv.termReq_of_not_active (by simp [hu])
  have hcause : s.fcause = .none := hinv.fcause_of_not_fault (by simp [hu])
  have hdark : ∀ i < s.inst.numPixels,
      readPixel (zeroPixels { issue s with inbox := ib, draws := n }) i = some Pixel.zero :=
    fun _ hi => readPixel_zeroPixels hi
  exact ⟨hdark, rfl, rfl, rfl, hreq, hbusy, hinv.xfer_of_not_busy hbusy, hcause, rfl⟩

end Sys2Proof.Machine

/-! PROOFS. The laws of SETPIXEL and CLEAR (rules R111, R115) and, for the first, what one pixel
contributes to a frame (rules R150 to R155). -/

namespace Sys2Proof.Machine

/-! ### One pixel's slice of a frame -/

theorem payload_append (ch : Channels) (xs ys : List Pixel) :
    payload ch (xs ++ ys) = payload ch xs ++ payload ch ys :=
  List.flatMap_append

theorem assemble_length (inst : Params) (pb : List Pixel) :
    (assemble inst pb).length = inst.pad + pb.length * inst.channels.count * 4 := by
  simp [assemble, payload_length, mul_assoc]

/-- A frame is the frame of the pixels before one, that pixel's bytes, and the payload of those after
it. -/
theorem assemble_append_cons (inst : Params) (xs ys : List Pixel) (p : Pixel) :
    assemble inst (xs ++ p :: ys) =
      assemble inst xs ++ pixelBytes inst.channels p ++ payload inst.channels ys := by
  simp [assemble, payload_append]

theorem pixelBytes_eq (ch : Channels) (p : Pixel) :
    pixelBytes ch p = encodeChannel p.G ++ encodeChannel p.R ++ encodeChannel p.B ++
      (if ch = .four then encodeChannel p.W else []) := by
  cases ch <;> simp [pixelBytes, channelValues]

/-- A slice that starts where `a` ends and is as long as `m` is `m`. -/
theorem slice_append_middle (a m c : List Byte) : slice (a ++ m ++ c) a.length m.length = m := by
  simp [slice]

/-- Lists that differ in a middle part of one length agree outside it. -/
theorem getElem?_append_middle {a m m' c : List Byte} (hm : m'.length = m.length) {j : Nat}
    (hj : ¬ (a.length ≤ j ∧ j < a.length + m.length)) :
    (a ++ m' ++ c)[j]? = (a ++ m ++ c)[j]? := by
  rcases Nat.lt_or_ge j a.length with hlt | hge
  · simp [List.getElem?_append_left, hlt]
  · have hend : a.length + m.length ≤ j := by omega
    rw [List.getElem?_append_right (by simpa [hm]), List.getElem?_append_right (by simpa)]
    simp [hm]

/-- Rules R151, R152: the slice of pixel `i` in the frame. -/
theorem slice_assemble (inst : Params) {pb : List Pixel} {i : Nat} {p : Pixel}
    (h : pb[i]? = some p) :
    slice (assemble inst pb) (inst.pad + i * inst.channels.count * 4) (inst.channels.count * 4) =
      pixelBytes inst.channels p := by
  obtain ⟨hi, rfl⟩ := List.getElem?_eq_some_iff.mp h
  have hlen : (assemble inst (pb.take i)).length = inst.pad + i * inst.channels.count * 4 := by
    rw [assemble_length, List.length_take_of_le hi.le]
  conv_lhs => rw [← List.take_append_drop i pb, List.drop_eq_getElem_cons hi]
  rw [assemble_append_cons, ← hlen, ← pixelBytes_length inst.channels pb[i], slice_append_middle]

/-- Rule R155 (b): writing pixel `i` changes at most its slice of the frame. -/
theorem assemble_set_outside (inst : Params) (pb : List Pixel) (i : Nat) (q : Pixel) {j : Nat}
    (hj : ¬ (inst.pad + i * inst.channels.count * 4 ≤ j ∧
      j < inst.pad + (i + 1) * inst.channels.count * 4)) :
    (assemble inst (pb.set i q))[j]? = (assemble inst pb)[j]? := by
  rcases Nat.lt_or_ge i pb.length with hi | hi
  · have hpb : pb = pb.take i ++ pb[i] :: pb.drop (i + 1) := by
      rw [← List.drop_eq_getElem_cons hi, List.take_append_drop]
    conv_rhs => rw [hpb]
    rw [List.set_eq_take_append_cons_drop, if_pos hi, assemble_append_cons, assemble_append_cons]
    apply getElem?_append_middle
    · simp [pixelBytes_length]
    · rw [assemble_length, List.length_take_of_le hi.le, pixelBytes_length]
      rwa [add_mul, add_mul, one_mul, ← add_assoc] at hj
  · rw [List.set_eq_of_length_le hi]

/-! ### What SETPIXEL and CLEAR do when they are accepted -/

/-- The state after a command that gave the buffer the content `pb` and returned OK; nothing else is
touched (rules R110, R114). -/
def okWithBuffer (pb : List Pixel) (s : State) : State := { s with pb := pb, host := .returned .ok }

section
variable (pb pb' : List Pixel) (s : State)

@[simp] theorem okWithBuffer_pb : (okWithBuffer pb s).pb = pb := rfl
@[simp] theorem okWithBuffer_inst : (okWithBuffer pb s).inst = s.inst := rfl
@[simp] theorem okWithBuffer_lc : (okWithBuffer pb s).lc = s.lc := rfl

/-- Of two such commands only the later one's buffer is left. -/
@[simp] theorem okWithBuffer_okWithBuffer :
    okWithBuffer pb' (okWithBuffer pb s) = okWithBuffer pb' s := rfl

end

/-- Such a command leaves the block free for the next one. -/
theorem commandFree_okWithBuffer {s : State} (h : CommandFree s) (pb : List Pixel) :
    CommandFree (okWithBuffer pb s) := h

/-- SETPIXEL in Active at an index in range (rule R110). -/
theorem exec_setPixel_of_active {s : State} (hf : CommandFree s) (hl : s.lc = .active) {i : Nat}
    (hi : i < s.inst.numPixels) (r g b w : Byte) :
    exec (.setPixel i r g b w) s = .next (okWithBuffer (s.pb.set i ⟨r, g, b, w⟩) s) := by
  rw [exec_of_free hf, commandBody, setPixelBody_in_range (s := issue s) hl hi]
  rfl

/-- CLEAR in Active (rule R114). -/
theorem exec_clear_of_active {s : State} (hf : CommandFree s) (hl : s.lc = .active) :
    exec .clear s = .next (okWithBuffer (zeroBuffer s.inst.numPixels) s) := by
  rw [exec_of_free hf, commandBody, clearBody_of_active (s := issue s) hl]
  rfl

/-- Two SETPIXELs write their pixels one after the other. -/
theorem execAll_two_setPixels {s : State} (hf : CommandFree s) (hl : s.lc = .active) {i j : Nat}
    (hi : i < s.inst.numPixels) (hj : j < s.inst.numPixels) (r g b w r' g' b' w' : Byte) :
    execAll [.setPixel i r g b w, .setPixel j r' g' b' w'] s =
      .next (okWithBuffer ((s.pb.set i ⟨r, g, b, w⟩).set j ⟨r', g', b', w'⟩) s) := by
  rw [execAll_cons, exec_setPixel_of_active hf hl hi, andThen_next, execAll_cons,
    exec_setPixel_of_active (commandFree_okWithBuffer hf _) hl hj]
  rfl

/-! ### The laws of SETPIXEL -/

/-- Settles O19: an accepted SETPIXEL replaces one element of the buffer and nothing else, so (b) and
(c) are the laws of `List.set`, and (d) is what one pixel contributes to the frame. -/
theorem setPixelLaws : Obligations.SetPixelLaws := by
  unfold Obligations.SetPixelLaws
  intro s t i r g b w hwf hf hl hi h
  have ht : t = okWithBuffer (s.pb.set i ⟨r, g, b, w⟩) s := by
    rw [exec_setPixel_of_active hf hl hi] at h
    cases h
    rfl
  have hread : readPixel t i = some ⟨r, g, b, w⟩ := by
    rw [ht]
    exact readPixel_writePixel_same (hwf.symm ▸ hi) _
  have hother : ∀ j, j ≠ i → readPixel t j = readPixel s j := by
    intro j hj
    rw [ht]
    exact readPixel_writePixel_other hj _
  subst ht
  refine ⟨hread, hother, ?overwrite, ?commute, ?slice, ?outside⟩
  case overwrite =>
    intro r' g' b' w'
    rw [exec_setPixel_of_active (commandFree_okWithBuffer hf _) hl hi,
      exec_setPixel_of_active hf hl hi]
    simp [List.set_set]
  case commute =>
    intro j r' g' b' w' hji hj
    rw [execAll_two_setPixels hf hl hi hj, execAll_two_setPixels hf hl hj hi,
      List.set_comm _ _ hji.symm]
  case slice => exact (slice_assemble s.inst hread).trans (pixelBytes_eq _ _)
  case outside => exact fun j hj => assemble_set_outside s.inst s.pb i _ hj

/-! ### The laws of CLEAR -/

theorem eq_zeroBuffer {n : Nat} {pb : List Pixel} (hlen : pb.length = n)
    (h : ∀ k < n, pb[k]? = some Pixel.zero) : pb = zeroBuffer n := by
  refine List.eq_replicate_iff.mpr ⟨hlen, fun p hp => ?_⟩
  obtain ⟨k, hk, rfl⟩ := List.mem_iff_getElem.mp hp
  simpa [hk] using h k (hlen ▸ hk)

/-- SETPIXELs with zero operands, once those at the indices still to come are all that is missing,
leave the buffer all zero. -/
theorem execAll_zero_setPixels {s : State} (hf : CommandFree s) (hl : s.lc = .active)
    {order : List Nat} (hrange : ∀ i ∈ order, i < s.inst.numPixels) {pb : List Pixel}
    (hlen : pb.length = s.inst.numPixels)
    (hdone : ∀ k < s.inst.numPixels, k ∉ order → pb[k]? = some Pixel.zero) :
    execAll (order.map fun i => .setPixel i 0 0 0 0) (okWithBuffer pb s) =
      .next (okWithBuffer (zeroBuffer s.inst.numPixels) s) := by
  induction order generalizing pb with
  | nil =>
    have hzero : pb = zeroBuffer s.inst.numPixels :=
      eq_zeroBuffer hlen fun k hk => hdone k hk List.not_mem_nil
    rw [List.map_nil, execAll_nil, hzero]
  | cons i rest ih =>
    rw [List.forall_mem_cons] at hrange
    obtain ⟨hi, hrest⟩ := hrange
    rw [List.map_cons, execAll_cons, exec_setPixel_of_active (commandFree_okWithBuffer hf pb) hl hi,
      andThen_next, okWithBuffer_okWithBuffer, okWithBuffer_pb]
    refine ih hrest (by simpa using hlen) fun k hk hkrest => ?_
    by_cases hki : k = i
    · subst hki
      exact List.getElem?_set_self (hlen ▸ hk)
    · rw [List.getElem?_set_ne (Ne.symm hki)]
      exact hdone k hk (by simp [hki, hkrest])

/-- Rule R115 (c): the `N` SETPIXELs with zero operands, in any order. The first of them is executed
on its own, for it is what makes the host's status OK. -/
theorem execAll_zero_setPixels_of_perm {s : State} (hwf : Memory.wf s) (hf : CommandFree s)
    (hl : s.lc = .active) {order : List Nat} (hperm : order.Perm (List.range s.inst.numPixels)) :
    execAll (order.map fun i => .setPixel i 0 0 0 0) s =
      .next (okWithBuffer (zeroBuffer s.inst.numPixels) s) := by
  have hmem : ∀ k, k ∈ order ↔ k < s.inst.numPixels := fun k => hperm.mem_iff.trans List.mem_range
  cases order with
  | nil => exact absurd ((hmem 0).mpr (Nat.succ_pos _)) List.not_mem_nil
  | cons i rest =>
    have hi : i < s.inst.numPixels := (hmem i).mp List.mem_cons_self
    rw [List.map_cons, execAll_cons, exec_setPixel_of_active hf hl hi, andThen_next]
    refine execAll_zero_setPixels hf hl (fun k hk => (hmem k).mp (List.mem_cons_of_mem i hk))
      (by simpa using hwf) fun k hk hkrest => ?_
    obtain rfl | hmemRest := List.mem_cons.mp ((hmem k).mpr hk)
    · exact List.getElem?_set_self (hwf.symm ▸ hk)
    · exact absurd hmemRest hkrest

/-- Settles O21: CLEAR, the `N` SETPIXELs with zero operands and a successful START all give the
buffer one content, `N` zero pixels. -/
theorem clearLaws : Obligations.ClearLaws := by
  unfold Obligations.ClearLaws
  intro s t hwf hf hl h
  obtain rfl : okWithBuffer (zeroBuffer s.inst.numPixels) s = t := by
    rw [exec_clear_of_active hf hl] at h
    cases h
    rfl
  refine ⟨?zero, ?idempotent, ?anyOrder, ?afterStart⟩
  case zero => exact fun i hi => readPixel_zeroPixels hi
  case idempotent => exact exec_clear_of_active (commandFree_okWithBuffer hf _) hl
  case anyOrder => exact fun order hperm => execAll_zero_setPixels_of_perm hwf hf hl hperm
  case afterStart =>
    intro u v _ hinst _ hstart hok
    obtain ⟨-, -, ib, n, rfl⟩ := exec_start_ok hstart hok
    simp [hinst]

end Sys2Proof.Machine

/-! PROOFS. The signal code's round trip (rules R136, R137). -/

namespace Sys2Proof.Machine

/-! ### A byte and its bits -/

/-- `byteOfBits` lists the bits from bit 7 down (rule R12): each `++` appends the next lower bit, which
is the library's `BitVec.concat`. -/
theorem getElem_byteOfBits (b7 b6 b5 b4 b3 b2 b1 b0 : Bool) (k : Nat) (hk : k < 8) :
    (byteOfBits b7 b6 b5 b4 b3 b2 b1 b0)[k] = [b0, b1, b2, b3, b4, b5, b6, b7][k] := by
  change ((((((((BitVec.ofBool b7).concat b6).concat b5).concat b4).concat b3).concat b2).concat
    b1).concat b0)[k] = _
  interval_cases k <;> simp [BitVec.getElem_concat]

/-- A byte is the byte of its own bits. -/
theorem byteOfBits_getLsbD (v : Byte) :
    byteOfBits (v.getLsbD 7) (v.getLsbD 6) (v.getLsbD 5) (v.getLsbD 4)
      (v.getLsbD 3) (v.getLsbD 2) (v.getLsbD 1) (v.getLsbD 0) = v := by
  apply BitVec.eq_of_getElem_eq
  intro k hk
  rw [getElem_byteOfBits]
  interval_cases k <;> rfl

/-! ### ENCODE and DECODE on bits -/

/-- ENCODE of a byte given by its bits: one signal byte for each pair (rule R132). -/
theorem encodeChannel_byteOfBits (b7 b6 b5 b4 b3 b2 b1 b0 : Bool) :
    encodeChannel (byteOfBits b7 b6 b5 b4 b3 b2 b1 b0) =
      [pairByte b7 b6, pairByte b5 b4, pairByte b3 b2, pairByte b1 b0] := by
  simp [encodeChannel, getElem_byteOfBits]

/-- DECODE of the signal bytes of four pairs: the byte with those bits (rule R136). -/
theorem decodeChannel_pairBytes (b7 b6 b5 b4 b3 b2 b1 b0 : Bool) :
    decodeChannel [pairByte b7 b6, pairByte b5 b4, pairByte b3 b2, pairByte b1 b0] =
      some (byteOfBits b7 b6 b5 b4 b3 b2 b1 b0) := by
  simp [decodeChannel]

/-- A sequence of four signal bytes is the sequence of the signal bytes of four pairs (rule R131). -/
theorem exists_pairBytes_of_signalBytes {y : List Byte} (hlen : y.length = 4)
    (hsig : ∀ b ∈ y, b ∈ signalBytes) :
    ∃ b7 b6 b5 b4 b3 b2 b1 b0,
      y = [pairByte b7 b6, pairByte b5 b4, pairByte b3 b2, pairByte b1 b0] := by
  obtain ⟨y0, y1, y2, y3, rfl⟩ := List.length_eq_four.mp hlen
  simp only [List.forall_mem_cons, mem_signalBytes_iff] at hsig
  obtain ⟨⟨b7, b6, rfl⟩, ⟨b5, b4, rfl⟩, ⟨b3, b2, rfl⟩, ⟨b1, b0, rfl⟩, -⟩ := hsig
  exact ⟨b7, b6, b5, b4, b3, b2, b1, b0, rfl⟩

/-- Settles O7: both functions are given on the bits of a byte, `UNPAIR` undoes `PAIRBYTE`, and every
signal byte is the `PAIRBYTE` of some pair. -/
theorem signalCodeRoundTrip : Obligations.SignalCodeRoundTrip := by
  unfold Obligations.SignalCodeRoundTrip
  refine ⟨fun v => ?decodeOfEncode, fun y hlen hsig => ?encodeOfDecode⟩
  case decodeOfEncode => rw [encodeChannel, decodeChannel_pairBytes, byteOfBits_getLsbD]
  case encodeOfDecode =>
    obtain ⟨b7, b6, b5, b4, b3, b2, b1, b0, rfl⟩ := exists_pairBytes_of_signalBytes hlen hsig
    exact ⟨_, decodeChannel_pairBytes .., encodeChannel_byteOfBits ..⟩

end Sys2Proof.Machine

/-! PROOFS. The frame length, the dark frame, and what stands at each frame offset (rules R152, R154). -/

namespace Sys2Proof.Machine

/-! ### The frame of the all-zero buffer -/

/-- A zero pixel is sent as the signal byte of the pair (0, 0), once for each of its bit pairs. -/
theorem pixelBytes_zero (ch : Channels) :
    pixelBytes ch Pixel.zero = List.replicate (ch.count * 4) 0x88 := by
  cases ch <;> decide

theorem payload_zeroBuffer (ch : Channels) (n : Nat) :
    payload ch (zeroBuffer n) = List.replicate (n * ch.count * 4) 0x88 := by
  rw [payload, zeroBuffer, List.flatMap_replicate, pixelBytes_zero,
    List.flatten_replicate_replicate, mul_assoc]

/-- Settles O9: a pixel's bytes are `CH * 4` whatever it holds, and all `88` when it is zero. -/
theorem frameLengthAndDarkFrame : Obligations.FrameLengthAndDarkFrame := by
  unfold Obligations.FrameLengthAndDarkFrame
  refine fun inst => ⟨fun pb hlen => ?length, ?dark⟩
  case length => rw [assemble_length, hlen]
  case dark => rw [darkFrame, assemble, payload_zeroBuffer, zeroBytes]

/-! ### From a pixel, slot and byte to its offset -/

/-- When every element contributes `n` entries, entry `k` of element `i` stands at `i * n + k`. -/
theorem getElem?_flatMap_of_length {α β : Type} {f : α → List β} {n : Nat}
    (hf : ∀ a, (f a).length = n) {l : List α} {i : Nat} {a : α} (h : l[i]? = some a) {k : Nat}
    (hk : k < n) : (l.flatMap f)[i * n + k]? = (f a)[k]? := by
  induction l generalizing i with
  | nil => simp at h
  | cons b l ih =>
    rw [List.flatMap_cons]
    cases i with
    | zero =>
      obtain rfl : b = a := by simpa using h
      rw [zero_mul, zero_add, List.getElem?_append_left (hk.trans_eq (hf b).symm)]
    | succ i =>
      have hoff : (i + 1) * n + k = (f b).length + (i * n + k) := by rw [hf b]; ring
      rw [hoff, List.getElem?_append_right (Nat.le_add_right ..), Nat.add_sub_cancel_left]
      exact ih (by simpa using h)

theorem getElem?_assemble_padding (inst : Params) (pb : List Pixel) {j : Nat} (hj : j < inst.pad) :
    (assemble inst pb)[j]? = some 0 := by
  rw [assemble, List.getElem?_append_left (by simpa using hj), zeroBytes,
    List.getElem?_replicate_of_lt hj]

/-- Byte `k` of slot `s` of pixel `i` (rule R152): the frame is cut into pixels of `CH * 4` bytes, and
a pixel into channels of four. -/
theorem getElem?_assemble_frameOffset (inst : Params) {pb : List Pixel} {i s k : Nat} {p : Pixel}
    {v : Byte} (hp : pb[i]? = some p) (hv : (channelValues inst.channels p)[s]? = some v)
    (hk : k < 4) : (assemble inst pb)[frameOffset inst i s k]? = (encodeChannel v)[k]? := by
  have hs : s < inst.channels.count := by
    rw [← channelValues_length inst.channels p]
    exact (List.getElem?_eq_some_iff.mp hv).1
  have hoff : frameOffset inst i s k =
      (zeroBytes inst.pad).length + (i * (inst.channels.count * 4) + (s * 4 + k)) := by
    rw [zeroBytes_length, frameOffset]
    ring
  calc (assemble inst pb)[frameOffset inst i s k]?
      = (payload inst.channels pb)[i * (inst.channels.count * 4) + (s * 4 + k)]? := by
        rw [assemble, hoff, List.getElem?_append_right (Nat.le_add_right ..),
          Nat.add_sub_cancel_left]
    _ = (pixelBytes inst.channels p)[s * 4 + k]? :=
        getElem?_flatMap_of_length (pixelBytes_length inst.channels) hp (by omega)
    _ = (encodeChannel v)[k]? := getElem?_flatMap_of_length encodeChannel_length hv hk

/-- Rule R132: signal byte `k` carries the bit pair `7 - 2k`, `6 - 2k`. -/
theorem getElem?_encodeChannel (v : Byte) {k : Nat} (hk : k < 4) :
    (encodeChannel v)[k]? = some (pairByte (v.getLsbD (7 - 2 * k)) (v.getLsbD (6 - 2 * k))) := by
  interval_cases k <;> rfl

/-! ### From a payload offset to its pixel, slot and byte -/

theorem channelCount_pos (ch : Channels) : 0 < ch.count := by cases ch <;> decide

/-- A payload offset belongs to a pixel of the strip. -/
theorem framePixel_lt {inst : Params} {j : Nat} (hpad : inst.pad ≤ j) (hj : j < inst.frameLength) :
    (j - inst.pad) / (4 * inst.channels.count) < inst.numPixels := by
  apply Nat.div_lt_of_lt_mul
  calc j - inst.pad < inst.numPixels * inst.bytesPerPixel := by
        rw [Params.frameLength] at hj
        omega
    _ = 4 * inst.channels.count * inst.numPixels := by
        rw [Params.bytesPerPixel]
        ring

/-- `frameLocation` inverts `frameOffset` on the payload: two divisions with remainder, first by four
and then by the channel count. -/
theorem frameOffset_frameLocation {inst : Params} {j : Nat} (hpad : inst.pad ≤ j) :
    frameOffset inst ((j - inst.pad) / (4 * inst.channels.count))
      ((j - inst.pad) / 4 % inst.channels.count) ((j - inst.pad) % 4) = j := by
  rw [frameOffset, ← Nat.div_div_eq_div_mul, Nat.div_add_mod', add_assoc, Nat.div_add_mod',
    Nat.add_sub_cancel' hpad]

/-- Settles O10: the frame is cut evenly into pixels, channels and signal bytes, so an offset is a
number in mixed radix whose digits are byte, slot and pixel. -/
theorem frameOffsets : Obligations.FrameOffsets := by
  unfold Obligations.FrameOffsets
  intro inst pb _
  refine ⟨fun j hj => ?padding, fun i p s v k hp hv hk => ?offset, fun j hpad hj => ?inverse⟩
  case padding => exact getElem?_assemble_padding inst pb hj
  case offset => exact ⟨getElem?_assemble_frameOffset inst hp hv hk, getElem?_encodeChannel v hk⟩
  case inverse =>
    exact ⟨rfl, framePixel_lt hpad hj, Nat.mod_lt _ (channelCount_pos _),
      Nat.mod_lt _ (by decide), frameOffset_frameLocation hpad⟩

end Sys2Proof.Machine

/-! PROOFS. The durations of a logical bit and of the padding, in units of `T_CLK` (rules R281, R282). -/

namespace Sys2Proof.Machine

/-! ### The bus clock period and the high and low times of a logical bit -/

theorem clockPeriod_pos (tm : BusTiming) : 0 < clockPeriod tm :=
  one_div_pos.mpr tm.busClock.property

/-- The nibble of a logical 0 is `1000`, that of a logical 1 is `1110` (rule R130). -/
theorem highClocks_eq (b : Bool) : highClocks b = if b then 3 else 1 := by
  cases b <;> decide

theorem highTime_false (tm : BusTiming) : highTime tm false = clockPeriod tm := by
  simp [highTime, highClocks_eq]

theorem highTime_true (tm : BusTiming) : highTime tm true = 3 * clockPeriod tm := by
  simp [highTime, highClocks_eq]

theorem lowTime_false (tm : BusTiming) : lowTime tm false = 3 * clockPeriod tm := by
  simp [lowTime, highClocks_eq]

theorem lowTime_true (tm : BusTiming) : lowTime tm true = clockPeriod tm := by
  simp [lowTime, highClocks_eq]

/-- Settles O50: the nibbles of rule R130 give the high and low times in units of `T_CLK`, and a bit
period is four of these. -/
theorem pulseTimes : Obligations.PulseTimes := by
  unfold Obligations.PulseTimes
  intro tm
  have hquarter : clockPeriod tm = bitPeriod tm / 4 := by
    rw [bitPeriod]
    ring
  have hthreeQuarters : 3 * clockPeriod tm = 3 * bitPeriod tm / 4 := by
    rw [bitPeriod]
    ring
  exact ⟨rfl, clockPeriod_pos tm, rfl, highTime_false tm, lowTime_false tm, highTime_true tm,
    lowTime_true tm, (highTime_false tm).trans hquarter, (highTime_true tm).trans hthreeQuarters⟩

/-! ### The padding: its bus bits, its time and the least legal `PAD` -/

/-- The reset padding holds the line low for eight bus bits per byte. -/
theorem serializeBytes_zeroBytes (n : Nat) :
    serializeBytes (zeroBytes n) = List.replicate (8 * n) false := by
  have hzero : serializeByte 0 = List.replicate 8 false := by decide
  rw [serializeBytes, zeroBytes, List.flatMap_replicate, hzero, List.flatten_replicate_replicate,
    mul_comm]

theorem paddingTime_eq (inst : Params) (tm : BusTiming) :
    paddingTime inst tm = 8 * inst.pad * clockPeriod tm := by
  simp [paddingTime, wordWidth]

theorem leastPad_eq (tm : BusTiming) :
    leastPad tm = ⌈tm.resetTime.val * tm.busClock.val / 8⌉₊ := by
  simp [leastPad, wordWidth]

/-- The requirement on `PAD` bounds it from below by a real number, of which `leastPad` is the
ceiling. -/
theorem paddingSuffices_iff_leastPad_le (inst : Params) (tm : BusTiming) :
    PaddingSuffices inst tm ↔ leastPad tm ≤ inst.pad := by
  calc PaddingSuffices inst tm
      ↔ tm.resetTime.val ≤ 8 * inst.pad / tm.busClock.val := by
        rw [PaddingSuffices, paddingTime_eq, clockPeriod, mul_one_div]
    _ ↔ tm.resetTime.val * tm.busClock.val ≤ 8 * inst.pad := le_div_iff₀ tm.busClock.property
    _ ↔ tm.resetTime.val * tm.busClock.val / 8 ≤ inst.pad := (div_le_iff₀' (by norm_num)).symm
    _ ↔ leastPad tm ≤ inst.pad := by rw [leastPad_eq, Nat.ceil_le]

/-- Settles O49: the padding's bus bits are low, its time is their number times `T_CLK`, and solving
the requirement for `PAD` gives the ceiling of rule R282. -/
theorem leastPadding : Obligations.LeastPadding := by
  unfold Obligations.LeastPadding
  intro inst tm
  have hrequirement :
      PaddingSuffices inst tm ↔ tm.resetTime.val ≤ 8 * inst.pad * clockPeriod tm := by
    rw [PaddingSuffices, paddingTime_eq]
  exact ⟨serializeBytes_zeroBytes inst.pad, paddingTime_eq inst tm, hrequirement,
    paddingSuffices_iff_leastPad_le inst tm, leastPad_eq tm⟩

end Sys2Proof.Machine

/-! PROOFS. The command word's encoder and decoder, the table of rule R97, and the illegal words of rule R99
(rules R96 to R99). -/

namespace Sys2Proof

/-! ### The decoder on the encoder's words -/

/-- A SETPIXEL word carries its operands in its fields (rule R98). -/
theorem decode_setPixelWord (idx : BitVec 24) (r g b w : Byte) :
    decode (commandWord 0x02 idx r g b w) = .ok (.setPixel idx.toNat r g b w) := by
  simp [decode]

/-- Settles O2: a command without operands has one word, and SETPIXEL's index fits its field, so that nothing
of it is cut off there. -/
theorem decodeOfEncode : Obligations.DecodeOfEncode := by
  unfold Obligations.DecodeOfEncode
  intro i hi
  cases i with
  | start => rfl
  | setPixel idx r g b w =>
    have hidx : idx < 2 ^ 24 := (wellFormed_setPixel_iff idx r g b w).mp hi
    rw [encode, decode_setPixelWord, BitVec.toNat_ofNat, Nat.mod_eq_of_lt hidx]
  | clear => rfl
  | refresh => rfl
  | terminate => rfl

/-! ### The encoder on a decoded command -/

/-- A word without operands is its operation code and zeros, which is how such a command is encoded. -/
theorem encode_of_withoutOperands {x : CommandWord} {i j : Instr} {op : Byte}
    (h : withoutOperands j x = .ok i) (hop : opField x = op) (hwf : WellFormed j)
    (henc : encode j = commandWord op 0 0 0 0 0) : WellFormed i ∧ encode i = x := by
  unfold withoutOperands at h
  split at h
  · next hzero =>
    cases h
    exact ⟨hwf, by rw [henc, ← hop, ← eq_commandWord_of_reserved_zero hzero]⟩
  · cases h

/-- Settles O3: a word is put together from its fields, and the decoder keeps them all or requires them to
be zero. -/
theorem encodeOfDecode : Obligations.EncodeOfDecode := by
  unfold Obligations.EncodeOfDecode
  intro x i h
  unfold decode at h
  split at h
  · next hop => exact encode_of_withoutOperands h hop rfl rfl
  split at h
  · next hop =>
    cases h
    refine ⟨(wellFormed_setPixel_iff ..).mpr (idxField x).isLt, ?_⟩
    rw [encode, BitVec.ofNat_toNat, BitVec.setWidth_eq, ← hop, commandWord_fields]
  split at h
  · next hop => exact encode_of_withoutOperands h hop rfl rfl
  split at h
  · next hop => exact encode_of_withoutOperands h hop rfl rfl
  split at h
  · next hop => exact encode_of_withoutOperands h hop rfl rfl
  · cases h

/-! ### The fields as one number -/

/-- The bit positions of rule R96 as weights. -/
theorem commandWord_toNat (op : Byte) (idx : BitVec 24) (r g b w : Byte) :
    (commandWord op idx r g b w).toNat =
      op.toNat * 2 ^ 56 + idx.toNat * 2 ^ 32 + r.toNat * 2 ^ 24 + g.toNat * 2 ^ 16 + b.toNat * 2 ^ 8 +
        w.toNat := by
  have happend {m n : Nat} (y : BitVec m) (z : BitVec n) :
      (y ++ z).toNat = y.toNat * 2 ^ n + z.toNat := by
    rw [BitVec.toNat_append, ← Nat.shiftLeft_add_eq_or_of_lt z.isLt, Nat.shiftLeft_eq]
  simp only [commandWord, happend]
  ring

/-- Settles O4: the number is that of the SETPIXEL word with these fields. -/
theorem setPixelWordLayout : Obligations.SetPixelWordLayout := by
  unfold Obligations.SetPixelWordLayout
  intro idx r g b w hidx
  have hidx' : (BitVec.ofNat 24 idx).toNat = idx := by
    rw [BitVec.toNat_ofNat, Nat.mod_eq_of_lt hidx]
  have hword : BitVec.ofNat 64 (0x02 * 2 ^ 56 + idx * 2 ^ 32 + r.toNat * 2 ^ 24 + g.toNat * 2 ^ 16 +
      b.toNat * 2 ^ 8 + w.toNat) = commandWord 0x02 (BitVec.ofNat 24 idx) r g b w := by
    apply BitVec.eq_of_toNat_eq
    rw [commandWord_toNat, hidx', BitVec.toNat_ofNat, Nat.mod_eq_of_lt (by omega)]
    rfl
  rw [hword, decode_setPixelWord, hidx']

/-! ### The table of rule R97 -/

/-- The word of a command selects that command's row only. -/
theorem encode_selects_mnemonic (i : Instr) : Laws.EncodedRow.Statement i := by
  cases i with
  | start => exact Laws.EncodedRow.start
  | setPixel idx r g b w => exact Laws.EncodedRow.setPixel idx r g b w
  | clear => exact Laws.EncodedRow.clear
  | refresh => exact Laws.EncodedRow.refresh
  | terminate => exact Laws.EncodedRow.terminate

/-- A row whose mask has every bit is selected by its own word only. -/
theorem selects_fullMask_iff (name : String) (m x : CommandWord) :
    OpcodeRow.selects ⟨name, m, 0xFFFFFFFFFFFFFFFF⟩ x = true ↔ x = m := by
  have hones : (0xFFFFFFFFFFFFFFFF : CommandWord) = BitVec.allOnes 64 := by decide
  rw [OpcodeRow.selects, hones, BitVec.and_allOnes, beq_iff_eq]

/-- SETPIXEL's mask is the operation field. -/
theorem opField_of_selects_setPixel {name : String} {x : CommandWord}
    (h : OpcodeRow.selects ⟨name, 0x0200000000000000, 0xFF00000000000000⟩ x = true) :
    opField x = 0x02 := by
  have hand : x &&& 0xFF00000000000000 = 0x0200000000000000 := by simpa [OpcodeRow.selects] using h
  have hop : opField (x &&& 0xFF00000000000000) = opField x := by
    have hmask : (0xFF00000000000000 : CommandWord).extractLsb' 56 8 = BitVec.allOnes 8 := by decide
    rw [opField, BitVec.extractLsb'_and, hmask, BitVec.and_allOnes, opField]
  rw [← hop, hand]
  decide

/-- A word that selects a row of the table is legal. -/
theorem decode_ne_error_of_selects {x : CommandWord} {row : OpcodeRow} (hrow : row ∈ opcodeRows)
    (hsel : row.selects x = true) (e : DecodeError) : decode x ≠ .error e := by
  have hfull {m : CommandWord} {name : String} {i : Instr} (hm : decode m = .ok i)
      (h : OpcodeRow.selects ⟨name, m, 0xFFFFFFFFFFFFFFFF⟩ x = true) : decode x ≠ .error e := by
    rw [(selects_fullMask_iff name m x).mp h, hm]
    exact nofun
  simp only [opcodeRows, List.mem_cons, List.not_mem_nil, or_false] at hrow
  rcases hrow with rfl | rfl | rfl | rfl | rfl
  · exact hfull (i := .start) rfl hsel
  · simp [decode, opField_of_selects_setPixel hsel]
  · exact hfull (i := .clear) rfl hsel
  · exact hfull (i := .refresh) rfl hsel
  · exact hfull (i := .terminate) rfl hsel

/-- Settles O5: a legal word is the word of its command, whose row the table gives, and a word that selects
some row is legal. -/
theorem decoderSelectsTableRow : Obligations.DecoderSelectsTableRow := by
  unfold Obligations.DecoderSelectsTableRow
  refine fun x => ⟨fun i h => ?legal, fun e h => ?illegal⟩
  case legal =>
    obtain ⟨-, rfl⟩ := encodeOfDecode x i h
    exact encode_selects_mnemonic i
  case illegal =>
    rw [List.filter_eq_nil_iff]
    exact fun row hrow hsel => decode_ne_error_of_selects hrow hsel e h

/-! ### The illegal words -/

theorem exists_bit_of_reservedField_ne_zero {x : CommandWord} :
    reservedField x ≠ 0 ↔ ∃ k < 56, x.getLsbD k = true := by
  rw [ne_eq, reservedField_eq_zero_iff]
  simp

theorem withoutOperands_error_iff (i : Instr) (x : CommandWord) :
    (∃ e, withoutOperands i x = .error e) ↔ reservedField x ≠ 0 := by
  unfold withoutOperands
  split <;> simp_all

/-- The illegal words of rule R99. -/
theorem decode_error_iff (x : CommandWord) :
    (∃ e, decode x = .error e) ↔
      opField x = 0x00 ∨ 0x06 ≤ (opField x).toNat ∨
        (opField x ∈ ([0x01, 0x03, 0x04, 0x05] : List Byte) ∧ reservedField x ≠ 0) := by
  unfold decode
  split
  · next h => simp [h, withoutOperands_error_iff]
  split
  · next h => simp [h]
  split
  · next h => simp [h, withoutOperands_error_iff]
  split
  · next h => simp [h, withoutOperands_error_iff]
  split
  · next h => simp [h, withoutOperands_error_iff]
  · next h1 h2 h3 h4 h5 =>
    have hrange : opField x = 0x00 ∨ 0x06 ≤ (opField x).toNat := by bv_omega
    simp only [Except.error.injEq, exists_eq', true_iff]
    exact hrange.imp id .inl

namespace Machine

/-- Rule R99: an illegal word changes nothing but what the host sees. -/
theorem presentWord_of_illegal {s : State} (hf : CommandFree s) {x : CommandWord} {e : DecodeError}
    (h : decode x = .error e) :
    presentWord x s = .next { s with host := .returned .rejIllegal } := by
  rw [presentWord, h]
  exact whenFree_of_free hf _

/-- Settles O6: the decoder's branches give the set, and a free block answers REJ_ILLEGAL. -/
theorem illegalWordsRejected : Obligations.IllegalWordsRejected := by
  unfold Obligations.IllegalWordsRejected
  refine ⟨fun x => ?set, fun x s hf ⟨e, h⟩ => presentWord_of_illegal hf h, rfl⟩
  case set => rw [decode_error_iff, exists_bit_of_reservedField_ne_zero]

end Machine

/-- Settles O1: the vectors of section 2.6, evaluated. -/
theorem sampleWordsDecode : Obligations.SampleWordsDecode := by
  unfold Obligations.SampleWordsDecode
  decide

end Sys2Proof

/-! PROOFS. The invariant of rule R43: one lemma for each move of the block or of an outside agent that keeps
it, and the theorem that every step does. -/

namespace Sys2Proof.Machine

/-! ### The shape of frames and records -/

theorem frameShape_assemble {inst : Params} {pb : List Pixel} (h : pb.length = inst.numPixels) :
    FrameShape inst (assemble inst pb) := by
  refine ⟨?length, ?padding, fun y hy => ?signal⟩
  case length => rw [assemble_length, h, Params.frameLength, Params.bytesPerPixel, mul_assoc]
  case padding => simp [assemble]
  case signal =>
    rw [assemble, List.drop_left' (zeroBytes_length inst.pad)] at hy
    exact mem_payload_signalBytes hy

theorem frameShape_darkFrame (inst : Params) : FrameShape inst (darkFrame inst) :=
  frameShape_assemble (zeroBuffer_length _)

/-- What a transfer logs agrees with its end (rules R38, R177). -/
theorem resultAgrees_transferRecord {inst : Params} {pos : Nat} {e : BusEnd}
    (he : possibleEnd inst.frameLength pos e = true) (kind : RecordKind) (f : List Byte) :
    ResultAgrees inst (transferRecord kind f e) := by
  cases e with
  | complete => rfl
  | short k =>
    simp only [possibleEnd, Bool.and_eq_true, decide_eq_true_eq] at he
    exact ⟨he.2, rfl⟩
  | ioerr m => exact List.take_prefix m f

theorem recordShape_darkRecord {inst : Params} {pos : Nat} {e : BusEnd}
    (he : possibleEnd inst.frameLength pos e = true) (kind : RecordKind) :
    RecordShape inst (transferRecord kind (darkFrame inst) e) :=
  ⟨frameShape_darkFrame inst, resultAgrees_transferRecord he kind _, fun _ => rfl⟩

/-! ### What the invariant says of a transfer in flight -/

section
variable {s : State} (h : Invariant s)
include h

theorem Invariant.busy_of_xfer {x : Transfer} (hx : s.xfer = some x) : s.busy = true :=
  h.busyIffXfer.mpr (by simp [hx])

theorem Invariant.active_of_xfer {x : Transfer} (hx : s.xfer = some x) : s.lc = .active :=
  h.busyActive (h.busy_of_xfer hx)

/-- Outside Active no transfer is in flight (rule R43 (d)). -/
theorem Invariant.busy_of_not_active (hl : s.lc ≠ .active) : s.busy = false :=
  Bool.eq_false_iff.mpr fun hb => hl (h.busyActive hb)

/-- A block that is not Active may be given a command: it has no transfer in flight and serves no request. -/
theorem Invariant.commandFree_of_not_active (hl : s.lc ≠ .active) : CommandFree s :=
  ⟨h.busy_of_not_active hl, serviceDue_of_not_active hl⟩

/-- Requests are enabled in Active but during the final transfer (rules R29, R204). -/
theorem Invariant.termEn_of_refresh {x : Transfer} (hx : s.xfer = some x) (hk : x.kind = .refresh) :
    s.termEn = true := by
  by_contra hen
  obtain ⟨y, hy, hfinal⟩ :=
    h.activeEnabled (h.active_of_xfer hx) (Bool.eq_false_iff.mpr hen)
  obtain rfl : x = y := Option.some.inj (hx.symm.trans hy)
  simp [hk] at hfinal

theorem Invariant.termEn_of_free (hl : s.lc = .active) (hb : s.busy = false) : s.termEn = true := by
  by_contra hen
  obtain ⟨y, hy, -⟩ := h.activeEnabled hl (Bool.eq_false_iff.mpr hen)
  simp [h.xfer_of_not_busy hb] at hy

/-- The final transfer sends the dark frame (rule R204). -/
theorem Invariant.finalFrame {x : Transfer} (hx : s.xfer = some x) (hk : x.kind = .final) :
    x.frame = darkFrame s.inst := by
  obtain ⟨hframe, -⟩ := h.flight x hx
  rw [hframe, assembledFrame, (h.finalDark x hx hk).1, darkFrame]

/-- The record that the transfer in flight leaves has the shape of rule R43 (h). -/
theorem Invariant.flightRecord {x : Transfer} (hx : s.xfer = some x) {e : BusEnd}
    (he : possibleEnd s.inst.frameLength x.pos e = true) :
    RecordShape s.inst (transferRecord (recordKind x.kind) x.frame e) := by
  refine ⟨?shape, resultAgrees_transferRecord he _ _, fun hkind => ?dark⟩
  case shape => rw [transferRecord, (h.flight x hx).1]; exact frameShape_assemble h.pixels
  case dark =>
    cases hk : x.kind with
    | refresh => simp [transferRecord, recordKind, hk] at hkind
    | final => exact h.finalFrame hx hk

theorem Invariant.recordsAfter {x : Transfer} (hx : s.xfer = some x) {e : BusEnd}
    (he : possibleEnd s.inst.frameLength x.pos e = true) :
    ∀ r ∈ s.txlog ++ [transferRecord (recordKind x.kind) x.frame e], RecordShape s.inst r := by
  intro r hr
  rcases List.mem_append.mp hr with hr | hr
  · exact h.records r hr
  · rw [List.mem_singleton.mp hr]
    exact h.flightRecord hx he

/-! ### The host's commands -/

/-- The outside agents' list and the count of free values are no part of the block. -/
theorem Invariant.withListed (ib : List Event) (n : Nat) :
    Invariant { s with inbox := ib, draws := n } :=
  { h with }

/-- A command that only returns its status. -/
theorem Invariant.answered (hb : s.busy = false) (st : Status) :
    Invariant { s with host := .returned st } :=
  { h with
    refreshWaits := fun x hx => by simp [h.xfer_of_not_busy hb] at hx
    waitsBusy := nofun }

/-- SETPIXEL and CLEAR write the buffer between two transfers. -/
theorem Invariant.written (hl : s.lc = .active) (hb : s.busy = false) {pb : List Pixel}
    (hlen : pb.length = s.inst.numPixels) : Invariant (okWithBuffer pb s) :=
  have hnone := h.xfer_of_not_busy hb
  { h.answered hb .ok with
    pixels := hlen
    terminalDark := fun hc => by simp [hl] at hc
    flight := fun x hx => by simp [okWithBuffer, hnone] at hx
    finalDark := fun x hx => by simp [okWithBuffer, hnone] at hx }

/-- REFRESH puts the frame of the buffer in flight (rule R158). -/
theorem Invariant.refreshing (hl : s.lc = .active) (hb : s.busy = false) :
    Invariant (transmit .refresh (assembledFrame (issue s)) (issue s)) :=
  { h with
    busyIffXfer := by simp
    busyActive := fun _ => hl
    flight := by simp [assembledFrame]
    finalDark := by simp
    activeEnabled := fun _ hen => by simp [h.termEn_of_free hl hb] at hen
    refreshWaits := fun _ _ _ => rfl
    waitsBusy := fun _ => rfl }

/-- Termination begins with the dark frame in flight and requests disabled, whether or not a host is inside
the command (rules R204, R241). -/
theorem Invariant.terminating (hl : s.lc = .active) (port : HostPort) :
    Invariant (beginTermination { s with host := port }) :=
  { h with
    pixels := zeroBuffer_length _
    busyIffXfer := by simp
    busyActive := fun _ => hl
    requestEnabled := by simp
    enabledActive := by simp
    terminalDark := fun _ => rfl
    flight := by simp [assembledFrame, darkFrame]
    finalDark := by simp
    activeEnabled := by simp
    refreshWaits := by simp
    waitsBusy := fun _ => rfl }

/-- A START that the bus accepted (rule R200). -/
theorem Invariant.started (hb : s.busy = false) (hu : s.lc = .uninitialized) :
    Invariant (answerHost .ok (startActive (issue s))) :=
  have hnone := h.xfer_of_not_busy hb
  have hcause : s.fcause = .none := h.fcause_of_not_fault (by simp [hu])
  { h with
    pixels := zeroBuffer_length _
    openIffActive := by simp
    busyActive := by simp
    requestEnabled := by simp
    enabledActive := by simp
    causeIffFault := by simp [hcause]
    terminalDark := by simp
    flight := by simp [hnone]
    finalDark := by simp [hnone]
    activeEnabled := by simp
    refreshWaits := by simp [hnone]
    waitsBusy := by simp }

end

/-- The fatal sequence needs of the invariant only its clause about the log: it sets every other field it
speaks of (rule R231). -/
theorem invariant_fatal {c : FatalCause} {s : State} (hc : c ≠ .none)
    (hlog : ∀ r ∈ s.txlog, RecordShape s.inst r) : Invariant (fatal c s) := by
  obtain ⟨ib, n, log, heq, hcleanup⟩ := fatal_cases c s
  have hnew : ∀ r ∈ log, RecordShape s.inst r := by
    rcases hcleanup with rfl | ⟨-, -, -, e, he, rfl⟩
    · simp
    · simpa using recordShape_darkRecord he .cleanup
  rw [heq]
  exact
    { pixels := zeroBuffer_length _
      openIffActive := by simp
      busyIffXfer := by simp
      busyActive := by simp
      requestEnabled := by simp
      enabledActive := by simp
      causeIffFault := by simpa using hc
      terminalDark := fun _ => rfl
      records := fun r hr => (List.mem_append.mp hr).elim (hlog r) (hnew r)
      flight := by simp
      finalDark := by simp
      activeEnabled := by simp
      refreshWaits := by simp
      waitsBusy := by simp }

section
variable {s : State} (h : Invariant s)
include h

/-- Every accepted command keeps the invariant. -/
theorem Invariant.commandBody (hf : CommandFree s) (i : Instr) :
    Invariant (commandBody i (issue s)) := by
  obtain ⟨hb, -⟩ := hf
  rcases commandBody_cases i (issue s) with
    ⟨-, heq⟩ | ⟨-, hu, ib, n, heq | heq⟩ | ⟨idx, r, g, b, w, -, hl, ⟨hi, heq⟩ | ⟨-, heq⟩⟩ |
    ⟨-, hl, heq⟩ | ⟨-, hl, heq⟩ | ⟨-, hl, heq⟩ | ⟨-, -, heq⟩
  all_goals rw [heq]
  · exact h.answered hb .rejState
  · exact (h.withListed ib n).started hb hu
  · exact invariant_fatal (by simp) h.records
  · exact h.written hl hb (pb := s.pb.set idx ⟨r, g, b, w⟩) (by simpa using h.pixels)
  · exact h.answered hb .rejIndex
  · exact h.written hl hb (zeroBuffer_length _)
  · exact h.refreshing hl hb
  · exact h.terminating hl .waiting
  · exact h.answered hb .ok

/-! ### The interrupt source's raise and the bus's moves -/

theorem Invariant.raised : Invariant (raiseRequest s) := by
  cases hen : s.termEn with
  | true =>
    rw [raiseRequest_of_enabled hen]
    exact { h with requestEnabled := fun _ => hen }
  | false => rwa [raiseRequest_of_disabled hen]

/-- A byte shifted out counts one more of the frame in flight (rule R30). -/
theorem Invariant.shifted {x : Transfer} (hx : s.xfer = some x) (hpos : x.pos < s.inst.frameLength) :
    Invariant { s with xfer := some { x with pos := x.pos + 1 } } :=
  { h with
    busyIffXfer := by simp [h.busy_of_xfer hx]
    flight := by
      rintro _ ⟨⟩
      exact ⟨(h.flight x hx).1, hpos⟩
    finalDark := by
      rintro _ ⟨⟩
      exact h.finalDark x hx
    activeEnabled := fun hl hen => by
      obtain ⟨y, hy, hk⟩ := h.activeEnabled hl hen
      obtain rfl : x = y := Option.some.inj (hx.symm.trans hy)
      exact ⟨_, rfl, hk⟩
    refreshWaits := by
      rintro _ ⟨⟩
      exact h.refreshWaits x hx }

/-- A REFRESH whose transfer is complete returns (rule R158). -/
theorem Invariant.refreshed {x : Transfer} (hx : s.xfer = some x) (hk : x.kind = .refresh) :
    Invariant (afterTransfer x .complete s) := by
  have hlog := h.recordsAfter hx (e := .complete) rfl
  rw [hk] at hlog
  rw [afterTransfer_refresh_complete hk]
  exact
    { h with
      busyIffXfer := by simp
      busyActive := by simp
      records := hlog
      flight := by simp
      finalDark := by simp
      activeEnabled := fun _ hen => by simp [h.termEn_of_refresh hx hk] at hen
      refreshWaits := by simp
      waitsBusy := by simp }

/-- A termination whose final transfer is complete ends in Closed (rule R204). -/
theorem Invariant.terminated {x : Transfer} (hx : s.xfer = some x) (hk : x.kind = .final) :
    Invariant (afterTransfer x .complete s) := by
  obtain ⟨hzero, hen⟩ := h.finalDark x hx hk
  have hcause : s.fcause = .none := h.fcause_of_not_fault (by simp [h.active_of_xfer hx])
  have hlog := h.recordsAfter hx (e := .complete) rfl
  rw [hk] at hlog
  rw [afterTransfer_final_complete hk]
  exact
    { h with
      openIffActive := by simp
      busyIffXfer := by simp
      busyActive := by simp
      enabledActive := by simp [hen]
      causeIffFault := by simp [hcause]
      terminalDark := fun _ => hzero
      records := hlog
      flight := by simp
      finalDark := by simp
      activeEnabled := by simp
      refreshWaits := by simp
      waitsBusy := by simp }

/-- However the bus ends the transfer in flight, the invariant is kept. -/
theorem Invariant.afterTransfer {x : Transfer} (hx : s.xfer = some x) {e : BusEnd}
    (he : possibleEnd s.inst.frameLength x.pos e = true) : Invariant (afterTransfer x e s) := by
  cases e with
  | complete =>
    cases hk : x.kind with
    | refresh => exact h.refreshed hx hk
    | final => exact h.terminated hx hk
  | short k => exact invariant_fatal (by simp) (h.recordsAfter hx he)
  | ioerr m => exact invariant_fatal (by simp) (h.recordsAfter hx he)

/-- Every move of an outside agent keeps the invariant. -/
theorem Invariant.takeEvent {e : Event} {t : State} (ht : takeEvent e s = .next t) : Invariant t := by
  rcases takeEvent_next ht with ⟨-, i, -, -, hf, rfl⟩ | ⟨-, -, -, -, ⟨hb, -⟩, rfl⟩ | ⟨-, rfl⟩ |
    ⟨x, -, -, hx, hpos, rfl⟩ | ⟨x, r, -, -, hx, hr, rfl⟩
  · exact h.commandBody hf i
  · exact h.answered hb .rejIllegal
  · exact h.raised
  · exact h.shifted hx hpos
  · exact h.afterTransfer hx hr

end

/-- Settles O37: a step is the service of a request, nothing, or one move of an outside agent, and each of
these keeps the invariant. -/
theorem invariantKept : Obligations.InvariantKept := by
  unfold Obligations.InvariantKept
  intro s t h hstep
  rcases step_next_cases hstep with ⟨hdue, rfl⟩ | ⟨-, -, rfl⟩ | ⟨e, rest, -, -, htake⟩
  · obtain ⟨-, -, hl⟩ := (serviceDue_iff s).mp hdue
    exact h.terminating hl s.host
  · exact h
  · exact (h.withListed rest s.draws).takeEvent htake

/-- Settles O38: after reset nothing is in flight, enabled, latched or logged. -/
theorem invariantAtReset : Obligations.InvariantAtReset := by
  unfold Obligations.InvariantAtReset
  intro inbox
  exact
    { pixels := Memory.wf_reset
      openIffActive := by simp [State.reset]
      busyIffXfer := by simp [State.reset]
      busyActive := nofun
      requestEnabled := nofun
      enabledActive := nofun
      causeIffFault := by simp [State.reset]
      terminalDark := by simp [State.reset]
      records := nofun
      flight := nofun
      finalDark := nofun
      activeEnabled := nofun
      refreshWaits := nofun
      waitsBusy := nofun }

end Sys2Proof.Machine

/-! PROOFS. Where DECODE has a value; the frame's channel order, recovery and locality; the frame on the
serial data line and its time there (rules R136, R151, R155, R186, R283). -/

namespace Sys2Proof.Machine

/-! ### The domain of DECODE -/

theorem nib_of_unnib {n : BitVec 4} {b : Bool} (h : unnib n = some b) : n = nib b := by
  unfold unnib at h
  split at h
  · next hn => cases h; exact hn
  split at h
  · next hn => cases h; exact hn
  · cases h

/-- UNPAIR has a value on signal bytes only (rule R136): both nibbles have to be code nibbles. -/
theorem mem_signalBytes_of_unpair {y : Byte} {p : Bool × Bool} (h : unpair y = some p) :
    y ∈ signalBytes := by
  have hy : y.extractLsb' 4 4 ++ y.extractLsb' 0 4 = y :=
    (BitVec.extractLsb'_append_extractLsb'_eq_extractLsb' (start₁ := 0) (len₁ := 4) rfl).trans
      BitVec.extractLsb'_eq_self
  unfold unpair at h
  split at h
  · next f s hf hs =>
    rw [mem_signalBytes_iff]
    exact ⟨f, s, by rw [pairByte, ← nib_of_unnib hf, ← nib_of_unnib hs, hy]⟩
  · cases h

/-- Settles O8: DECODE needs four bytes on each of which UNPAIR has a value. -/
theorem signalDecodeDomain : Obligations.SignalDecodeDomain := by
  unfold Obligations.SignalDecodeDomain
  refine fun y => ⟨fun h => ?defined, fun ⟨hlen, hsig⟩ => ?signalBytes⟩
  case defined =>
    unfold decodeChannel at h
    split at h
    · split at h
      · next h0 h1 h2 h3 =>
        simp [mem_signalBytes_of_unpair h0, mem_signalBytes_of_unpair h1,
          mem_signalBytes_of_unpair h2, mem_signalBytes_of_unpair h3]
      · cases h
    · cases h
  case signalBytes =>
    obtain ⟨_, _, _, _, _, _, _, _, rfl⟩ := exists_pairBytes_of_signalBytes hlen hsig
    rw [decodeChannel_pairBytes, Option.isSome_some]

/-! ### Order, recovery and locality -/

/-- Settles O11: the slice is that of the pixel's bytes, channel by channel. -/
theorem frameChannelOrder : Obligations.FrameChannelOrder := by
  unfold Obligations.FrameChannelOrder
  intro inst pb i p hp
  rw [slice_assemble inst hp, pixelBytes_eq]

/-- The four bytes of a slot are the code of its channel value (rule R155 (a)). -/
theorem slice_slot (inst : Params) {pb : List Pixel} {i s : Nat} {p : Pixel} {v : Byte}
    (hp : pb[i]? = some p) (hv : (channelValues inst.channels p)[s]? = some v) :
    slice (assemble inst pb) (frameOffset inst i s 0) 4 = encodeChannel v := by
  apply List.ext_getElem?
  intro k
  rcases Nat.lt_or_ge k 4 with hk | hk
  · rw [slice, List.getElem?_take_of_lt hk, List.getElem?_drop]
    exact getElem?_assemble_frameOffset inst hp hv hk
  · rw [List.getElem?_eq_none (by simp [slice, hk]), List.getElem?_eq_none (by simpa using hk)]

theorem decodeChannel_slot (inst : Params) {pb : List Pixel} {i s : Nat} {p : Pixel} {v : Byte}
    (hp : pb[i]? = some p) (hv : (channelValues inst.channels p)[s]? = some v) :
    decodeChannel (slice (assemble inst pb) (frameOffset inst i s 0) 4) = some v := by
  rw [slice_slot inst hp hv]
  exact signalCodeRoundTrip.1 v

/-- Settles O12: a slot of the frame is the code of its value, which DECODE inverts, so that equal frames
have equal values slot by slot. -/
theorem frameRecovery : Obligations.FrameRecovery := by
  unfold Obligations.FrameRecovery
  refine fun inst pb hlen => ⟨fun i p s v hp hv => decodeChannel_slot inst hp hv, ?injective⟩
  case injective =>
    intro pb' hlen' hframe
    apply List.ext_getElem (by simp [hlen, hlen'])
    intro i hi hi'
    rw [List.getElem_map, List.getElem_map]
    rw [List.length_map] at hi hi'
    apply List.ext_getElem (by simp [channelValues_length])
    intro s hs hs'
    have hv := decodeChannel_slot inst (List.getElem?_eq_getElem hi) (List.getElem?_eq_getElem hs)
    have hv' := decodeChannel_slot inst (List.getElem?_eq_getElem hi') (List.getElem?_eq_getElem hs')
    rw [← hframe, hv] at hv'
    exact Option.some.inj hv'

/-- The first offset of pixel `i` (rule R152). -/
theorem frameOffset_pixel (inst : Params) (i : Nat) :
    frameOffset inst i 0 0 = inst.pad + i * inst.channels.count * 4 := rfl

/-- An offset in the slice of pixel `i` is that of one of its bytes. -/
theorem exists_frameOffset_of_pixelSlice {inst : Params} {i j : Nat} (hlo : frameOffset inst i 0 0 ≤ j)
    (hhi : j < frameOffset inst (i + 1) 0 0) :
    ∃ s k, s < inst.channels.count ∧ k < 4 ∧ j = frameOffset inst i s k := by
  rw [frameOffset_pixel] at hlo hhi
  rw [add_mul, add_mul, one_mul] at hhi
  refine ⟨(j - (inst.pad + i * inst.channels.count * 4)) / 4,
    (j - (inst.pad + i * inst.channels.count * 4)) % 4, by omega, Nat.mod_lt _ (by decide), ?_⟩
  rw [frameOffset, add_mul]
  omega

/-- Settles O13: outside the pixel's slice the frame does not depend on the pixel, and inside it each slot is
the code of one channel value. -/
theorem frameLocality : Obligations.FrameLocality := by
  unfold Obligations.FrameLocality
  intro inst pb i p q hp
  have hpixel : ∀ j, ¬ (frameOffset inst i 0 0 ≤ j ∧ j < frameOffset inst (i + 1) 0 0) →
      (assemble inst (pb.set i q))[j]? = (assemble inst pb)[j]? :=
    fun j hj => assemble_set_outside inst pb i q hj
  refine ⟨hpixel, fun s hsame j hj => ?field⟩
  case field =>
    by_cases hslice : frameOffset inst i 0 0 ≤ j ∧ j < frameOffset inst (i + 1) 0 0
    · obtain ⟨s', k, hs', hk, rfl⟩ := exists_frameOffset_of_pixelSlice hslice.1 hslice.2
      have hne : s' ≠ s := by
        rintro rfl
        simp only [frameOffset] at hj
        omega
      have hq : (pb.set i q)[i]? = some q :=
        List.getElem?_set_self (List.getElem?_eq_some_iff.mp hp).1
      rw [← channelValues_length inst.channels p] at hs'
      have hv := List.getElem?_eq_getElem hs'
      rw [getElem?_assemble_frameOffset inst hp hv hk,
        getElem?_assemble_frameOffset inst hq ((hsame s' hne).symm.trans hv) hk]
    · exact hpixel j hslice

/-! ### The frame on the serial data line -/

/-- The logical bits of a buffer in the order in which the strip receives them (rules R57, R186). -/
def logicalBits (ch : Channels) (pb : List Pixel) : List Bool :=
  pb.flatMap fun p => (channelValues ch p).flatMap bitsFromTop

theorem logicalBits_length (ch : Channels) (pb : List Pixel) :
    (logicalBits ch pb).length = 8 * ch.count * pb.length := by
  have hbits (v : Byte) : (bitsFromTop v).length = 8 := rfl
  simp [logicalBits, hbits, channelValues_length]
  ring

/-- The payload's bus bits are `1 b b 0` for each logical bit (rules R138, R186). -/
theorem serializeBytes_payload (ch : Channels) (pb : List Pixel) :
    serializeBytes (payload ch pb) = (logicalBits ch pb).flatMap logicalBitOnWire := by
  have hchannel (v : Byte) :
      (encodeChannel v).flatMap serializeByte = (bitsFromTop v).flatMap logicalBitOnWire :=
    serializeBytes_encodeChannel v
  simp only [serializeBytes, payload, pixelBytes, logicalBits, List.flatMap_assoc, hchannel]

theorem serializeBytes_assemble (inst : Params) (pb : List Pixel) :
    serializeBytes (assemble inst pb) = List.replicate (8 * inst.pad) false ++
      (logicalBits inst.channels pb).flatMap logicalBitOnWire := by
  rw [assemble, serializeBytes_append, serializeBytes_zeroBytes, serializeBytes_payload]

/-- Every byte is eight bus bits (rule R182). -/
theorem serializeBytes_length (f : List Byte) : (serializeBytes f).length = 8 * f.length := by
  simp [serializeBytes, mul_comm]

theorem serializeBytes_assemble_length (inst : Params) {pb : List Pixel}
    (h : pb.length = inst.numPixels) :
    (serializeBytes (assemble inst pb)).length =
      8 * (inst.pad + 4 * inst.channels.count * inst.numPixels) := by
  rw [serializeBytes_length, assemble_length, h]
  ring

/-- A low line that stays low does not rise. -/
theorem risingEdges_replicate_false (n : Nat) (l : List Bool) :
    risingEdges false (List.replicate n false ++ l) = risingEdges false l := by
  induction n with
  | zero => rfl
  | succ n ih => simpa [List.replicate_succ, risingEdges] using ih

/-- Each logical bit begins with the line's rise and ends with it low. -/
theorem risingEdges_logicalBits (l : List Bool) :
    risingEdges false (l.flatMap logicalBitOnWire) = l.length := by
  induction l with
  | nil => rfl
  | cons b l ih =>
    have hbit : risingEdges false (logicalBitOnWire b ++ l.flatMap logicalBitOnWire) =
        1 + risingEdges false (l.flatMap logicalBitOnWire) := by
      cases b <;> simp [logicalBitOnWire, risingEdges]
    rw [List.flatMap_cons, hbit, ih, List.length_cons, add_comm]

/-- Settles O14: the padding is low, and each logical bit is `1 b b 0`, one rise each. -/
theorem frameOnTheWire : Obligations.FrameOnTheWire := by
  unfold Obligations.FrameOnTheWire
  intro inst pb hlen
  refine ⟨serializeBytes_assemble inst pb, hlen ▸ logicalBits_length inst.channels pb, ?edges, ?bits, rfl⟩
  case edges =>
    rw [serializeBytes_assemble, idleLevel, risingEdges_replicate_false, risingEdges_logicalBits,
      logicalBits]
  case bits =>
    rw [serializeBytes_assemble_length inst hlen]
    ring

/-! ### The time of a frame on the bus -/

/-- Settles O51: a frame's bus bits are eight for each of its `L` bytes, and `L` is positive. -/
theorem frameTimeOnBus : Obligations.FrameTimeOnBus := by
  unfold Obligations.FrameTimeOnBus
  intro inst tm pb hlen
  have hframe : (assemble inst pb).length = inst.frameLength := (frameShape_assemble hlen).1
  have hbits : (serializeBytes (assemble inst pb)).length = 8 * inst.frameLength := by
    rw [serializeBytes_length, hframe]
  have htime : frameTime inst tm = (8 * inst.frameLength : Nat) * clockPeriod tm := rfl
  have hrate : refreshRateBound inst tm = tm.busClock.val / (8 * inst.frameLength : Nat) := rfl
  refine ⟨by rw [htime, hbits], ?_, hrate, ?inverse⟩
  · rw [htime, ← hbits, serializeBytes_assemble_length inst hlen]
  case inverse =>
    have hL : ((8 * inst.frameLength : Nat) : ℝ) ≠ 0 := by
      have := frameLength_pos inst
      exact Nat.cast_ne_zero.mpr (by omega)
    have hF : tm.busClock.val ≠ 0 := tm.busClock.property.ne'
    rw [htime, hrate, clockPeriod]
    field_simp

end Sys2Proof.Machine

/-! PROOFS. What each command, each end of a transfer and the fatal sequence do (rules R110 to R114, R158,
R171, R176, R177, R200, R204, R206, R222, R231, R232, R270). -/

namespace Sys2Proof.Machine

/-! ### Commands in Active and elsewhere -/

/-- A command that the lifecycle state does not accept changes nothing but what the host sees (rule R222). -/
theorem exec_rejected {s : State} (hf : CommandFree s) {i : Instr} (h : accepts s.lc i = false) :
    exec i s = .next { s with host := .returned .rejState } := by
  rw [exec_of_free hf, commandBody_rejected (s := issue s) h]
  rfl

theorem exec_setPixel_out_of_range {s : State} (hf : CommandFree s) (hl : s.lc = .active) {idx : Nat}
    (hi : s.inst.numPixels ≤ idx) (r g b w : Byte) :
    exec (.setPixel idx r g b w) s = .next { s with host := .returned .rejIndex } := by
  rw [exec_of_free hf, commandBody, setPixelBody_out_of_range (s := issue s) hl hi]
  rfl

theorem exec_refresh_of_active {s : State} (hf : CommandFree s) (hl : s.lc = .active) :
    exec .refresh s = .next
      { s with host := .waiting, busy := true, xfer := some ⟨.refresh, assembledFrame s, 0⟩ } := by
  rw [exec_of_free hf, commandBody, refreshBody_of_active (s := issue s) hl]
  rfl

theorem exec_terminate_of_active {s : State} (hf : CommandFree s) (hl : s.lc = .active) :
    exec .terminate s = .next (beginTermination (issue s)) := by
  rw [exec_of_free hf, commandBody, terminateBody_of_active (s := issue s) hl]

theorem exec_terminate_of_not_active {s : State} (hf : CommandFree s) (hl : s.lc ≠ .active) :
    exec .terminate s = .next { s with host := .returned .ok } := by
  rw [exec_of_free hf, commandBody, terminateBody_of_not_active (s := issue s) hl]
  rfl

/-- Settles O18: the lifecycle check comes first, then the index check, then the one pixel is written. -/
theorem setPixelResult : Obligations.SetPixelResult := by
  unfold Obligations.SetPixelResult
  intro s idx r g b w hf
  refine ⟨fun hl => ?rejected, fun hl hi => ?outOfRange, fun hl hi => ?written⟩
  case rejected => exact exec_rejected hf (by simpa [accepts] using hl)
  case outOfRange => exact exec_setPixel_out_of_range hf hl hi r g b w
  case written => exact exec_setPixel_of_active hf hl hi r g b w

/-- Settles O20: in Active the buffer becomes the zero buffer. -/
theorem clearResult : Obligations.ClearResult := by
  unfold Obligations.ClearResult
  refine fun s hf => ⟨fun hl => ?rejected, fun hl => ?cleared⟩
  case rejected => exact exec_rejected hf (by simpa [accepts] using hl)
  case cleared => exact exec_clear_of_active hf hl

/-- Settles O26: the acceptance check that every command stands behind refuses a busy block. -/
theorem commandRefusedInFlight : Obligations.CommandRefusedInFlight := by
  unfold Obligations.CommandRefusedInFlight
  intro s hb
  have hrefused (body : State → State) : whenFree s body = .refused .commandWhileBusy := if_pos hb
  refine ⟨fun i => by rw [exec_eq_whenFree, hrefused], fun x => ?word⟩
  case word =>
    unfold presentWord
    split
    · rw [exec_eq_whenFree, hrefused]
    · exact hrefused _

/-! ### The fatal sequence -/

theorem answeredPort_eq_ite (st : Status) (h : HostPort) :
    answeredPort st h = if h = .waiting then .returned st else h := by
  cases h <;> simp [answeredPort]

/-- Without a REFRESH in flight the fatal sequence sends no cleanup frame (rule R232). -/
theorem fatal_of_no_refresh {s : State} (h : transferOrigin s ≠ some .refresh) (c : FatalCause) :
    fatal c s =
      { s with
        pb := zeroBuffer s.inst.numPixels, lc := .fault, opened := false, termEn := false,
        termReq := false, busy := false, xfer := none, fcause := c,
        host := answeredPort .fatal s.host } := by
  rw [fatal, if_neg fun hc => h hc.2]
  rfl

/-- Under `attempt` a failed REFRESH on an open bus is followed by a cleanup frame (rule R232). -/
theorem fatal_txlog_of_attempt {s : State} (hp : s.inst.cleanup = .attempt) (ho : s.opened = true)
    (hx : transferOrigin s = some .refresh) (c : FatalCause) :
    ∃ r, (fatal c s).txlog = s.txlog ++ [r] := by
  obtain ⟨e, ib, n, hdraw, -⟩ := drawCleanupEnd_cases (fatalBlank s)
  rw [fatal, if_pos ⟨ho, hx⟩, attemptCleanup_of_attempt (by exact hp), hdraw]
  exact ⟨_, rfl⟩

/-- Settles O30: the fatal sequence sets its fields outright; only whether it logs a cleanup frame is open,
and the policy, the bus and the kind of transfer decide that. -/
theorem fatalSequence : Obligations.FatalSequence := by
  unfold Obligations.FatalSequence
  intro c s
  obtain ⟨ib, n, cleanup, heq, hcleanup⟩ := fatal_cases c s
  have hattempt : s.inst.cleanup = .attempt → s.opened = true →
      (∃ x, s.xfer = some x ∧ x.kind = .refresh) → cleanup ≠ [] := by
    rintro hp ho ⟨x, hx, hk⟩ rfl
    obtain ⟨r, hr⟩ := fatal_txlog_of_attempt hp ho (by simp [transferOrigin, hx, hk]) c
    simp [heq] at hr
  have hnone : s.opened = false ∨ (∀ x, s.xfer = some x → x.kind = .final) → cleanup = [] := by
    rintro (ho | hx) <;> obtain rfl | ⟨ho', hx', -⟩ := hcleanup
    · rfl
    · simp [ho] at ho'
    · rfl
    · obtain ⟨x, hs, hk⟩ := Option.map_eq_some_iff.mp hx'
      simp [hx x hs] at hk
  have hskip : s.inst.cleanup = .skip → cleanup = [] := by
    intro hp
    obtain rfl | ⟨-, -, hne, -⟩ := hcleanup
    · rfl
    · exact absurd hp hne
  refine ⟨cleanup, ?_⟩
  rw [heq]
  exact ⟨rfl, rfl, rfl, rfl, rfl, rfl, rfl, rfl, rfl, answeredPort_eq_ite .fatal s.host, rfl,
    hcleanup.imp id fun ⟨_, _, _, hend⟩ => hend, hnone, hskip, hattempt⟩

/-! ### The ends of a transfer -/

/-- The cause of the fatal error that an end of a transfer raises, none if it is complete (rule R176). -/
def failureCause : BusEnd → FatalCause
  | .complete => .none
  | .short _ => .xferShort
  | .ioerr _ => .xferIo

/-- A transfer that does not complete is logged and then fatal (rule R176). -/
theorem afterTransfer_of_failed {e : BusEnd} (he : e ≠ .complete) (x : Transfer) (s : State) :
    afterTransfer x e s =
      fatal (failureCause e) (logRecord (transferRecord (recordKind x.kind) x.frame e) s) := by
  cases e with
  | complete => exact absurd rfl he
  | short k => rfl
  | ioerr m => rfl

/-- Everything a transfer that does not complete can do. -/
theorem afterTransfer_failed_cases {e : BusEnd} (he : e ≠ .complete) (x : Transfer) (s : State) :
    ∃ inbox draws cleanup, afterTransfer x e s =
        { s with
          pb := zeroBuffer s.inst.numPixels, lc := .fault, opened := false, termEn := false,
          termReq := false, busy := false, xfer := none, fcause := failureCause e,
          txlog := s.txlog ++ transferRecord (recordKind x.kind) x.frame e :: cleanup,
          host := answeredPort .fatal s.host, inbox := inbox, draws := draws } ∧
      (∀ r ∈ cleanup, r.kind = .cleanup) ∧ cleanup.length ≤ 1 := by
  rw [afterTransfer_of_failed he]
  obtain ⟨ib, n, cleanup, heq, hcleanup⟩ := fatal_cases (failureCause e)
    (logRecord (transferRecord (recordKind x.kind) x.frame e) s)
  refine ⟨ib, n, cleanup, by rw [heq]; simp, ?_⟩
  rcases hcleanup with rfl | ⟨-, -, -, e', -, rfl⟩ <;> simp [transferRecord]

/-- A final transfer that does not complete is followed by no cleanup frame (rules R204, R232). -/
theorem afterTransfer_final_failed {e : BusEnd} (he : e ≠ .complete) {x : Transfer} {s : State}
    (hx : s.xfer = some x) (hk : x.kind = .final) :
    afterTransfer x e s =
      { s with
        pb := zeroBuffer s.inst.numPixels, lc := .fault, opened := false, termEn := false,
        termReq := false, busy := false, xfer := none, fcause := failureCause e,
        txlog := s.txlog ++ [transferRecord .final x.frame e],
        host := answeredPort .fatal s.host } := by
  rw [afterTransfer_of_failed he, fatal_of_no_refresh (by simp [transferOrigin, hx, hk]), hk]
  rfl

/-- A complete transfer changes neither the cause nor the buffer, and logs one record (rule R176). -/
theorem afterTransfer_complete (x : Transfer) (s : State) :
    (afterTransfer x .complete s).txlog =
        s.txlog ++ [transferRecord (recordKind x.kind) x.frame .complete] ∧
      (afterTransfer x .complete s).busy = false ∧ (afterTransfer x .complete s).xfer = none ∧
      (afterTransfer x .complete s).fcause = s.fcause ∧ (afterTransfer x .complete s).pb = s.pb := by
  cases hk : x.kind with
  | refresh => rw [afterTransfer_refresh_complete hk]; exact ⟨rfl, rfl, rfl, rfl, rfl⟩
  | final => rw [afterTransfer_final_complete hk]; exact ⟨rfl, rfl, rfl, rfl, rfl⟩

/-- Settles O29: XFER_DONE asks for a transfer in flight and a possible count, logs the record, and only then
goes on by the end's kind. -/
theorem transferEnds : Obligations.TransferEnds := by
  unfold Obligations.TransferEnds
  refine ⟨fun s e hb => ?notBusy, fun s x e hb hx he => ?impossible, fun s x e hb hx he => ?ended⟩
  case notBusy => simp [xferDone, inFlight, hb]
  case impossible => simp [xferDone, inFlight, hb, hx, he]
  case ended =>
    rw [xferDone_of_inFlight hb hx he]
    by_cases hc : e = .complete
    · subst hc
      obtain ⟨hlog, hbusy, hxfer, hcause, hpb⟩ := afterTransfer_complete x s
      exact ⟨_, [], rfl, hlog, hbusy, hxfer, fun _ => ⟨rfl, hcause, hpb⟩, nofun, nofun⟩
    · obtain ⟨ib, n, cleanup, heq, -⟩ := afterTransfer_failed_cases hc x s
      refine ⟨_, cleanup, rfl, ?_⟩
      rw [heq]
      exact ⟨rfl, rfl, rfl, fun h => absurd h hc, fun k h => by rw [h]; exact ⟨rfl, rfl⟩,
        fun m h => by rw [h]; exact ⟨rfl, rfl⟩⟩

/-- Settles O34: the record of the failed REFRESH is a Refresh record, and after it come cleanup records
only. -/
theorem fatalBeatsRequest : Obligations.FatalBeatsRequest := by
  unfold Obligations.FatalBeatsRequest
  intro s x e hb hx hk _ he hc
  obtain ⟨ib, n, cleanup, heq, hcleanup, -⟩ := afterTransfer_failed_cases hc x s
  refine ⟨_, transferRecord (recordKind x.kind) x.frame e :: cleanup, xferDone_of_inFlight hb hx he, ?_⟩
  rw [heq]
  refine ⟨rfl, rfl, rfl, List.forall_mem_cons.mpr ⟨by simp [transferRecord, recordKind, hk], ?_⟩⟩
  exact fun r hr => by simp [hcleanup r hr]

/-- Settles O28: the byte counter stops at the frame's length. -/
theorem byteShifts : Obligations.ByteShifts := by
  unfold Obligations.ByteShifts
  intro s x hb hx
  have hflight : inFlight s = some x := inFlight_eq_some.mpr ⟨hb, hx⟩
  refine ⟨fun hpos => ?shifted, fun hpos => ?beyond⟩
  case shifted => simp [shiftOut, hflight, hpos]
  case beyond => simp [shiftOut, hflight, Nat.not_lt.mpr hpos]

/-! ### REFRESH and TERMINATE -/

/-- A failed REFRESH (rules R158, R231): its record, then at most cleanup records, and Fault. -/
theorem xferDone_refresh_failed {s : State} {x : Transfer} {e : BusEnd} (hb : s.busy = true)
    (hx : s.xfer = some x) (hk : x.kind = .refresh) (hw : s.host = .waiting)
    (he : possibleEnd s.inst.frameLength x.pos e = true) (hc : e ≠ .complete) :
    ∃ t cleanup, xferDone e s = .next t ∧ t.lc = .fault ∧ t.fcause = failureCause e ∧
      t.host = .returned .fatal ∧ (∀ r ∈ cleanup, r.kind = .cleanup) ∧
      t.txlog = s.txlog ++ transferRecord .refresh x.frame e :: cleanup := by
  obtain ⟨ib, n, cleanup, heq, hcleanup, -⟩ := afterTransfer_failed_cases hc x s
  refine ⟨_, cleanup, xferDone_of_inFlight hb hx he, ?_⟩
  rw [heq, hk, hw]
  exact ⟨rfl, rfl, rfl, hcleanup, rfl⟩

/-- Settles O22: REFRESH up to its TRANSMIT, and the three ends of its transfer. -/
theorem refreshResult : Obligations.RefreshResult := by
  unfold Obligations.RefreshResult
  refine ⟨fun s hf hl => ?rejected, fun s hf hl => ?begun, fun s x hb hx hk hw => ?complete,
    fun s x k hb hx hk hw hlo hhi => ?short, fun s x m hb hx hk hw hlo hhi => ?ioerr⟩
  case rejected => exact exec_rejected hf (by simpa [accepts] using hl)
  case begun => exact exec_refresh_of_active hf hl
  case complete =>
    rw [xferDone_of_inFlight hb hx rfl, afterTransfer_refresh_complete hk, hw]
    rfl
  case short =>
    exact xferDone_refresh_failed hb hx hk hw (by simp [possibleEnd, hlo, hhi]) (by simp)
  case ioerr =>
    exact xferDone_refresh_failed hb hx hk hw (by simp [possibleEnd, hlo, hhi]) (by simp)

/-- Settles O23: TERMINATE up to its TRANSMIT, and the three ends of the final transfer. -/
theorem terminateResult : Obligations.TerminateResult := by
  unfold Obligations.TerminateResult
  refine ⟨fun s hf hl => ?begun, fun s x hb hx hk => ?complete, fun s x k hb hx hk hlo hhi => ?short,
    fun s x m hb hx hk hlo hhi => ?ioerr⟩
  case begun => exact exec_terminate_of_active hf hl
  case complete =>
    rw [xferDone_of_inFlight hb hx rfl, afterTransfer_final_complete hk, answeredPort_eq_ite]
    rfl
  case short =>
    rw [xferDone_of_inFlight hb hx (by simp [possibleEnd, hlo, hhi]),
      afterTransfer_final_failed (by simp) hx hk, answeredPort_eq_ite]
    rfl
  case ioerr =>
    rw [xferDone_of_inFlight hb hx (by simp [possibleEnd, hlo, hhi]),
      afterTransfer_final_failed (by simp) hx hk, answeredPort_eq_ite]
    rfl

/-- Settles O24: outside Active TERMINATE and CLOSE do nothing, and the first TERMINATE from Active leaves
it. -/
theorem terminateIdempotent : Obligations.TerminateIdempotent := by
  unfold Obligations.TerminateIdempotent
  refine ⟨fun s ho => ?close, fun s hf hl => exec_terminate_of_not_active hf hl, fun s hf hl => ?twice⟩
  case close => rw [closeBus, ← ho]
  case twice =>
    have hflight : (beginTermination (issue s)).xfer = some ⟨.final, darkFrame s.inst, 0⟩ := rfl
    rw [exec_terminate_of_active hf hl, andThen_next, xferDone_of_inFlight rfl hflight rfl,
      afterTransfer_final_complete rfl, andThen_next,
      exec_terminate_of_not_active ⟨rfl, serviceDue_of_not_active (by simp)⟩ (by simp)]
    exact ⟨_, rfl, rfl, rfl, rfl⟩

/-! ### START -/

/-- Settles O16: the draw reads the head of the inbox. -/
theorem openAnswerDrawn : Obligations.OpenAnswerDrawn := by
  unfold Obligations.OpenAnswerDrawn
  refine fun s a rest => ⟨fun h => by simp [drawOpenAnswer, h], fun h => ?free⟩
  case free =>
    unfold drawOpenAnswer
    split
    · next a' rest' heq => exact absurd heq (h a' rest')
    · rfl

/-- Settles O15: START runs its success path or the fatal sequence by the bus's answer; from Uninitialized
the latter finds nothing in flight and nothing latched. -/
theorem startResult : Obligations.StartResult := by
  unfold Obligations.StartResult
  refine ⟨fun s h hu ha => ?accepted, fun s h hu ha => ?refused, fun s hf hl => ?rejected⟩
  case rejected => exact exec_rejected hf (by simpa [accepts] using hl)
  all_goals
    have hna : s.lc ≠ .active := by simp [hu]
    rw [exec_of_free (h.commandFree_of_not_active hna), commandBody,
      startBody_of_uninitialized (s := issue s) hu, drawOpenAnswer_issue, ha]
    obtain ⟨a, ib, n, hdraw⟩ := drawOpenAnswer_cases s
    rw [hdraw]
  case accepted => rfl
  case refused =>
    have hb : s.busy = false := h.busy_of_not_active hna
    have hx : s.xfer = none := h.xfer_of_not_busy hb
    have hreq : s.termReq = false := h.termReq_of_not_active hna
    rw [if_neg (by simp), fatal_of_no_refresh (by simp [transferOrigin, hx])]
    simp only [hb, hx, hreq]
    rfl

/-! ### Acceptance and frames -/

/-- A command that is accepted returns another status than REJ_STATE, or does not return yet. -/
theorem commandBody_host_of_accepts {i : Instr} {s : State} (h : accepts s.lc i = true) :
    (commandBody i (issue s)).host ≠ .returned .rejState := by
  rcases commandBody_cases i (issue s) with
    ⟨hr, -⟩ | ⟨-, -, ib, n, heq | heq⟩ | ⟨idx, r, g, b, w, -, -, ⟨-, heq⟩ | ⟨-, heq⟩⟩ |
    ⟨-, -, heq⟩ | ⟨-, -, heq⟩ | ⟨-, -, heq⟩ | ⟨-, -, heq⟩
  · exact absurd (h.symm.trans hr) (by simp)
  all_goals rw [heq]
  all_goals simp [issue, fatal_host]

/-- Settles O25: the table is `accepts`, and a command is behind it in every lifecycle state. -/
theorem acceptanceTable : Obligations.AcceptanceTable := by
  unfold Obligations.AcceptanceTable
  intro s i hf accepted
  have haccepts : accepted ↔ accepts s.lc i = true := by
    cases i <;> cases hl : s.lc <;> simp [accepted, accepts, hl]
  refine ⟨fun h => ?rejected, fun h => ?answered, fun hl hi => ?inactive⟩
  case rejected => exact exec_rejected hf (Bool.eq_false_iff.mpr fun ha => h (haccepts.mpr ha))
  case answered => exact ⟨_, exec_of_free hf i, commandBody_host_of_accepts (haccepts.mp h)⟩
  case inactive => rw [hi, exec_terminate_of_not_active hf hl]

/-- An outcome has one next state. -/
theorem next_unique {o : Host.Outcome State Fault Refusal} {t u : State} (ht : o = .next t)
    (hu : o = .next u) : u = t :=
  Host.Outcome.next.inj (hu.symm.trans ht)

/-- Settles O27: each command's next states, one for each of its checks, are the record `s` with only the
named fields set. -/
theorem commandFrames : Obligations.CommandFrames := by
  unfold Obligations.CommandFrames
  refine ⟨fun s t h ht => ?start, fun s t idx r g b w ht => ?setPixel, fun s t ht => ?clear,
    fun s t ht => ?refresh, fun s t ht => ?terminate⟩
  all_goals have hf : CommandFree s := (exec_next ht).1
  case start =>
    obtain ⟨haccepted, hrefused, hrejected⟩ := startResult
    obtain ⟨a, ib, n, hdraw⟩ := drawOpenAnswer_cases s
    by_cases hu : s.lc = .uninitialized
    · cases a with
      | true =>
        obtain rfl := next_unique (haccepted s h hu (by rw [hdraw])) ht
        rw [hdraw]
      | false =>
        obtain rfl := next_unique (hrefused s h hu (by rw [hdraw])) ht
        rw [hdraw]
    · obtain rfl := next_unique (hrejected s hf hu) ht
      rfl
  case setPixel =>
    obtain ⟨hrejected, houtOfRange, hwritten⟩ := setPixelResult s idx r g b w hf
    by_cases hl : s.lc = .active
    · rcases Nat.lt_or_ge idx s.inst.numPixels with hi | hi
      · obtain rfl := next_unique (hwritten hl hi) ht
        exact ⟨rfl, fun j hj => readPixel_writePixel_other hj _⟩
      · obtain rfl := next_unique (houtOfRange hl hi) ht
        exact ⟨rfl, fun _ _ => rfl⟩
    · obtain rfl := next_unique (hrejected hl) ht
      exact ⟨rfl, fun _ _ => rfl⟩
  case clear =>
    obtain ⟨hrejected, hcleared⟩ := clearResult s hf
    by_cases hl : s.lc = .active
    · obtain rfl := next_unique (hcleared hl) ht
      rfl
    · obtain rfl := next_unique (hrejected hl) ht
      rfl
  case refresh =>
    by_cases hl : s.lc = .active
    · obtain rfl := next_unique (exec_refresh_of_active hf hl) ht
      rfl
    · obtain rfl := next_unique (exec_rejected hf (by simpa [accepts] using hl)) ht
      rfl
  case terminate =>
    by_cases hl : s.lc = .active
    · obtain rfl := next_unique (exec_terminate_of_active hf hl) ht
      rfl
    · obtain rfl := next_unique (exec_terminate_of_not_active hf hl) ht
      rfl

end Sys2Proof.Machine

/-! PROOFS. Steps and runs: the listed moves, the termination request, whole REFRESHes, and what every step
keeps (rules R20, R23, R27, R38, R41, R67, R207, R227, R233, R240, R241, R266). -/

namespace Sys2Proof.Machine

/-! ### One step of the listed move -/

/-- The latch of rule R240 in one field. -/
theorem raiseRequest_eq (s : State) :
    raiseRequest s = { s with termReq := s.termEn || s.termReq } := by
  unfold raiseRequest
  split
  · next hen => rw [hen, Bool.true_or]
  · next hen =>
    have hlost : (s.termEn || s.termReq) = s.termReq := by simp [hen]
    rw [hlost]

/-- Settles O52: with no service due a step is `takeEvent` of the listed move. -/
theorem stepTakesListedMove : Obligations.StepTakesListedMove := by
  unfold Obligations.StepTakesListedMove
  intro s rest hd
  refine ⟨fun r hi => step_of_event hd hi, fun hi => step_of_event hd hi, fun hi => ?raise,
    fun x hi => step_of_event hd hi, fun x e hi he => ⟨fun hb => ?illegal, fun hb => ?busy⟩,
    fun a hi => step_of_event hd hi, fun a hi => step_of_event hd hi, fun r hi => step_of_event hd hi⟩
  case raise =>
    rw [step_of_event hd hi, takeEvent, raiseRequest_eq]
  case illegal =>
    rw [step_of_event hd hi]
    exact presentWord_of_illegal (s := { s with inbox := rest }) ⟨hb, hd⟩ he
  case busy =>
    rw [step_of_event hd hi]
    exact (commandRefusedInFlight { s with inbox := rest } hb).2 x

/-- Settles O35: a legal word is presented as the command it decodes to. -/
theorem stepRunsDecodedCommand : Obligations.StepRunsDecodedCommand := by
  unfold Obligations.StepRunsDecodedCommand
  have hword : ∀ (s : State) (x : CommandWord) (rest : List Event) (i : Instr), serviceDue s = false →
      s.inbox = .command x :: rest → decode x = .ok i → step s = exec i { s with inbox := rest } := by
    intro s x rest i hd hi hx
    rw [step_of_event hd hi, takeEvent, presentWord, hx]
  refine ⟨hword, fun s nbits w i hd hw => ?fetched⟩
  case fetched =>
    have hx : decode (tableWord nbits w) = .ok i := by
      unfold decodeTableWord at hw
      split at hw
      · next hdec =>
        cases hw
        exact hdec
      · cases hw
    exact hword (s.withFetchWord nbits w) (tableWord nbits w) s.inbox i hd rfl hx

/-- Settles O31: with no service due the raise is the step. -/
theorem requestLatched : Obligations.RequestLatched := by
  unfold Obligations.RequestLatched
  intro s rest hd hi
  rw [step_of_event hd hi]
  refine ⟨fun hen => ?latched, fun hen => ?lost⟩
  case latched => rw [takeEvent, raiseRequest_of_enabled (by exact hen)]
  case lost => rw [takeEvent, raiseRequest_of_disabled (by exact hen)]

/-- Settles O32: a due service is the step, and the acceptance check refuses a command until it is done. -/
theorem requestServedFirst : Obligations.RequestServedFirst := by
  unfold Obligations.RequestServedFirst
  intro s hreq hl hb
  have hdue : serviceDue s = true := (serviceDue_iff s).mpr ⟨hreq, hb, hl⟩
  refine ⟨step_of_due hdue, fun i => ?refused⟩
  case refused => simp [exec_eq_whenFree, whenFree, hb, hdue]

/-- The bus's listed end of the transfer in flight is the step: a busy block serves no request. -/
theorem step_xferDone {s : State} {x : Transfer} {e : BusEnd} {rest : List Event} (hb : s.busy = true)
    (hx : s.xfer = some x) (hi : s.inbox = .xferDone e :: rest)
    (he : possibleEnd s.inst.frameLength x.pos e = true) :
    step s = .next (afterTransfer x e { s with inbox := rest }) := by
  rw [step_of_event (serviceDue_of_busy hb) hi]
  exact xferDone_of_inFlight (s := { s with inbox := rest }) hb hx he

/-- The listed word of a REFRESH puts the frame of the buffer in flight (rule R158). -/
theorem step_refreshWord {s : State} {rest : List Event} (hf : CommandFree s) (hl : s.lc = .active)
    (hi : s.inbox = .command 0x0400000000000000 :: rest) :
    step s = .next
      { s with inbox := rest, host := .waiting, busy := true,
               xfer := some ⟨.refresh, assembledFrame s, 0⟩ } := by
  rw [stepRunsDecodedCommand.1 s _ rest .refresh hf.2 hi rfl]
  exact exec_refresh_of_active (s := { s with inbox := rest }) hf hl

/-! ### Runs -/

/-- A run of `m + n` steps is a run of `m` followed by one of `n`. -/
theorem runSteps_add (m n : Nat) (s : State) :
    runSteps (m + n) s = andThen (runSteps m s) (runSteps n) := by
  induction m generalizing s with
  | zero => rw [Nat.zero_add, runSteps_zero, andThen_next]
  | succ m ih =>
    rw [Nat.succ_add, runSteps_succ, runSteps_succ]
    cases hstep : step s with
    | next t => exact ih t
    | fault r => exact nomatch r
    | refused r => rfl

/-- Settles O36: an idle step leaves the state as it is, and so does a run of them. -/
theorem blockIdlesAndHangs : Obligations.BlockIdlesAndHangs := by
  unfold Obligations.BlockIdlesAndHangs
  intro s n hi hd
  induction n with
  | zero => rfl
  | succ n ih => rw [runSteps_of_step (step_of_idle hd hi), ih]

/-- Raises during a transfer, with requests enabled: the first of them is latched, the others change
nothing (rule R240). -/
theorem runSteps_raises {s : State} {rest : List Event} (n : Nat) (hb : s.busy = true)
    (hen : s.termEn = true) (hi : s.inbox = List.replicate (n + 1) .termReq ++ rest) :
    runSteps (n + 1) s = .next { s with termReq := true, inbox := rest } := by
  induction n generalizing s with
  | zero => exact runSteps_of_step ((requestLatched s rest (serviceDue_of_busy hb) hi).1 hen) 0
  | succ n ih =>
    rw [List.replicate_succ, List.cons_append] at hi
    rw [runSteps_of_step ((requestLatched s _ (serviceDue_of_busy hb) hi).1 hen)]
    exact ih (s := { s with termReq := true, inbox := _ }) hb hen rfl

/-- Settles O33: the raises leave the transfer alone; its end makes the request due, the service sends the
dark frame, and the end of that closes the block. -/
theorem requestDuringRefresh : Obligations.RequestDuringRefresh := by
  unfold Obligations.RequestDuringRefresh
  intro s x n rest h hx hk hi
  have hb : s.busy = true := h.busy_of_xfer hx
  have hl : s.lc = .active := h.active_of_xfer hx
  have hw : s.host = .waiting := h.refreshWaits x hx hk
  have hraised : runSteps (n + 1) s = .next
      { s with termReq := true, inbox := .xferDone .complete :: .xferDone .complete :: rest } :=
    runSteps_raises n hb (h.termEn_of_refresh hx hk) hi
  rw [show n + 4 = (n + 1) + 3 by omega, runSteps_add, hraised, andThen_next]
  calc runSteps 3 { s with termReq := true, inbox := .xferDone .complete :: .xferDone .complete :: rest }
      = runSteps 2 { s with
          termReq := true, inbox := .xferDone .complete :: rest, busy := false, xfer := none,
          txlog := s.txlog ++ [transferRecord .refresh x.frame .complete], host := .returned .ok } := by
        rw [runSteps_of_step (step_xferDone (by exact hb) (by exact hx) rfl rfl),
          afterTransfer_refresh_complete hk, hw]
        rfl
    _ = runSteps 1 (beginTermination { s with
          termReq := true, inbox := .xferDone .complete :: rest, busy := false, xfer := none,
          txlog := s.txlog ++ [transferRecord .refresh x.frame .complete], host := .returned .ok }) :=
        runSteps_of_step (step_of_due (by exact (serviceDue_iff _).mpr ⟨rfl, rfl, hl⟩)) 1
    _ = _ := by
        rw [runSteps_of_step (step_xferDone rfl rfl rfl rfl), afterTransfer_final_complete rfl]
        simp only [beginTermination_txlog, List.append_assoc]
        rfl

/-- Bytes shifted out one after the other (rule R30). -/
theorem runSteps_shiftBytes {s : State} {x : Transfer} {rest : List Event} (n : Nat)
    (hb : s.busy = true) (hx : s.xfer = some x) (hn : x.pos + n ≤ s.inst.frameLength)
    (hi : s.inbox = List.replicate n .shiftByte ++ rest) :
    runSteps n s = .next { s with inbox := rest, xfer := some ⟨x.kind, x.frame, x.pos + n⟩ } := by
  induction n generalizing s x with
  | zero =>
    have hrest : s.inbox = rest := hi
    rw [runSteps_zero, ← hrest, Nat.add_zero, ← hx]
  | succ n ih =>
    rw [List.replicate_succ, List.cons_append] at hi
    have hstep := step_of_event (serviceDue_of_busy hb) hi
    have hshift := (byteShifts { s with inbox := List.replicate n .shiftByte ++ rest } x hb hx).1
    rw [takeEvent, hshift (by simp; omega)] at hstep
    rw [runSteps_of_step hstep, ih (by exact hb) rfl (by simp; omega) rfl]
    simp [Nat.add_assoc, Nat.add_comm 1]

/-- Settles O53: the word begins the transfer, the bytes count up to `n`, and the transfer's end is that of
XFER_DONE. -/
theorem refreshRun : Obligations.RefreshRun := by
  unfold Obligations.RefreshRun
  intro s n e rest hf hl hn he hi
  have hsent : runSteps (n + 1) s = .next
      { s with inbox := .xferDone e :: rest, host := .waiting, busy := true,
               xfer := some ⟨.refresh, assembledFrame s, n⟩ } := by
    rw [runSteps_of_step (step_refreshWord hf hl hi), runSteps_shiftBytes n rfl rfl (by simpa) rfl]
    simp
  refine ⟨hsent, ?_⟩
  rw [runSteps_add (n + 1) 1, hsent, andThen_next, runSteps_of_step (step_xferDone rfl rfl rfl he),
    runSteps_zero]
  by_cases hc : e = .complete
  · subst hc
    rw [afterTransfer_refresh_complete rfl]
    exact ⟨_, [], rfl, rfl, nofun, rfl, rfl, fun _ => ⟨rfl, hl, rfl, rfl⟩, nofun, nofun⟩
  · obtain ⟨ib, d, cleanup, heq, hcleanup, -⟩ := afterTransfer_failed_cases hc
      ⟨.refresh, assembledFrame s, n⟩
      { s with inbox := rest, host := .waiting, busy := true,
               xfer := some ⟨.refresh, assembledFrame s, n⟩ }
    refine ⟨_, cleanup, rfl, ?_⟩
    rw [heq]
    exact ⟨rfl, hcleanup, rfl, rfl, fun h => absurd h hc, fun k h => by rw [h]; exact ⟨rfl, rfl, rfl⟩,
      fun m h => by rw [h]; exact ⟨rfl, rfl, rfl⟩⟩

/-- The state after a complete REFRESH: one record more, the status OK, and `rest` still listed. -/
def afterRefresh (rest : List Event) (s : State) : State :=
  { s with
    inbox := rest, host := .returned .ok,
    txlog := s.txlog ++ [⟨.refresh, assembledFrame s, .complete, assembledFrame s⟩] }

/-- A REFRESH word and the complete end of its transfer take two steps. -/
theorem runSteps_refresh {s : State} {rest : List Event} (n : Nat) (hf : CommandFree s)
    (hl : s.lc = .active) (hx : s.xfer = none)
    (hi : s.inbox = .command 0x0400000000000000 :: .xferDone .complete :: rest) :
    runSteps (n + 2) s = runSteps n (afterRefresh rest s) := by
  rw [runSteps_of_step (step_refreshWord hf hl hi),
    runSteps_of_step (step_xferDone rfl rfl rfl rfl), afterTransfer_refresh_complete rfl]
  simp only [afterRefresh, ← hf.1, ← hx]
  rfl

/-- Settles O46: each REFRESH leaves a free Active block with the same buffer to the next one. -/
theorem refreshesNeverCoalesced : Obligations.RefreshesNeverCoalesced := by
  unfold Obligations.RefreshesNeverCoalesced
  intro s k rest hf hl hx hi
  induction k generalizing s with
  | zero => exact runSteps_refresh 0 hf hl hx hi
  | succ k ih =>
    rw [List.replicate_succ, List.flatten_cons] at hi
    simp only [List.cons_append, List.nil_append] at hi
    rw [show 2 * (k + 1 + 1) = 2 * (k + 1) + 2 by ring, runSteps_refresh _ hf hl hx hi,
      ih (afterRefresh _ s) hf hl hx rfl]
    simp [afterRefresh, assembledFrame, List.replicate_succ]

/-! ### The parameters, the log and the buffer -/

theorem fatal_inst (c : FatalCause) (s : State) : (fatal c s).inst = s.inst := by
  obtain ⟨_, _, _, heq, -⟩ := fatal_cases c s
  rw [heq]

theorem afterTransfer_inst (x : Transfer) (e : BusEnd) (s : State) :
    (afterTransfer x e s).inst = s.inst := by
  by_cases hc : e = .complete
  · subst hc
    cases hk : x.kind with
    | refresh => rw [afterTransfer_refresh_complete hk]
    | final => rw [afterTransfer_final_complete hk]
  · rw [afterTransfer_of_failed hc, fatal_inst, logRecord_inst]

theorem commandBody_inst (i : Instr) (s : State) : (commandBody i s).inst = s.inst := by
  rcases commandBody_cases i s with
    ⟨-, heq⟩ | ⟨-, -, _, _, heq | heq⟩ | ⟨_, _, _, _, _, -, -, ⟨-, heq⟩ | ⟨-, heq⟩⟩ | ⟨-, -, heq⟩ |
    ⟨-, -, heq⟩ | ⟨-, -, heq⟩ | ⟨-, -, heq⟩
  all_goals rw [heq]
  all_goals simp [fatal_inst]

theorem step_inst {s t : State} (h : step s = .next t) : t.inst = s.inst := by
  rcases step_next_cases h with ⟨-, rfl⟩ | ⟨-, -, rfl⟩ | ⟨e, rest, -, -, htake⟩
  · rfl
  · rfl
  rcases takeEvent_next htake with ⟨-, i, -, -, -, rfl⟩ | ⟨-, -, -, -, -, rfl⟩ | ⟨-, rfl⟩ |
    ⟨x, -, -, -, -, rfl⟩ | ⟨x, r, -, -, -, -, rfl⟩
  · exact commandBody_inst i _
  · rfl
  · rw [raiseRequest_eq]
  · rfl
  · exact afterTransfer_inst x r _

/-- Settles O45: no step changes the parameters, so no run does. -/
theorem parametersConstant : Obligations.ParametersConstant := by
  unfold Obligations.ParametersConstant
  intro s t n h
  exact runSteps_induction (P := fun u => u.inst = s.inst)
    (fun _ _ hu hstep => (step_inst hstep).trans hu) n s t rfl h

theorem afterTransfer_txlog (x : Transfer) (e : BusEnd) (s : State) :
    ∃ new, (afterTransfer x e s).txlog = s.txlog ++ new ∧ new.length ≤ 2 := by
  by_cases hc : e = .complete
  · subst hc
    exact ⟨_, (afterTransfer_complete x s).1, by simp⟩
  · obtain ⟨_, _, cleanup, heq, -, hlen⟩ := afterTransfer_failed_cases hc x s
    exact ⟨_, by rw [heq], by simpa using hlen⟩

/-- A command adds no record, or the cleanup record of a START that the bus refuses. -/
theorem commandBody_txlog (i : Instr) (s : State) :
    ∃ new, (commandBody i s).txlog = s.txlog ++ new ∧ new.length ≤ 1 := by
  have hsame : ∃ new, s.txlog = s.txlog ++ new ∧ new.length ≤ 1 := ⟨[], by simp, by simp⟩
  rcases commandBody_cases i s with
    ⟨-, heq⟩ | ⟨-, -, ib, n, heq | heq⟩ | ⟨_, _, _, _, _, -, -, ⟨-, heq⟩ | ⟨-, heq⟩⟩ | ⟨-, -, heq⟩ |
    ⟨-, -, heq⟩ | ⟨-, -, heq⟩ | ⟨-, -, heq⟩
  all_goals rw [heq]
  · exact hsame
  · exact hsame
  · obtain ⟨_, _, log, heq', hlog⟩ := fatal_cases .config { s with inbox := ib, draws := n }
    refine ⟨log, by rw [heq'], ?_⟩
    rcases hlog with rfl | ⟨-, -, -, -, -, rfl⟩ <;> simp
  all_goals exact hsame

/-- Settles O43: only the end of a transfer logs its record, with a cleanup record after it at most. -/
theorem txlogOnlyGrows : Obligations.TxlogOnlyGrows := by
  unfold Obligations.TxlogOnlyGrows
  intro s t h
  have hsame : ∃ new, s.txlog = s.txlog ++ new ∧ new.length ≤ 2 := ⟨[], by simp, by simp⟩
  rcases step_next_cases h with ⟨-, rfl⟩ | ⟨-, -, rfl⟩ | ⟨e, rest, -, -, htake⟩
  · exact hsame
  · exact hsame
  rcases takeEvent_next htake with ⟨-, i, -, -, -, rfl⟩ | ⟨-, -, -, -, -, rfl⟩ | ⟨-, rfl⟩ |
    ⟨x, -, -, -, -, rfl⟩ | ⟨x, r, -, -, -, -, rfl⟩
  · obtain ⟨new, hnew, hlen⟩ := commandBody_txlog i (issue { s with inbox := rest })
    exact ⟨new, hnew, by omega⟩
  · exact hsame
  · rw [raiseRequest_eq]
    exact hsame
  · exact hsame
  · exact afterTransfer_txlog x r _

/-- The commands that write the buffer (rule R23): SETPIXEL its pixel, the others zeros. -/
theorem commandBody_pb {i : Instr} {s : State} (h : (commandBody i s).pb ≠ s.pb) :
    (∃ idx r g b w, i = .setPixel idx r g b w ∧ s.lc = .active ∧ idx < s.inst.numPixels ∧
      (commandBody i s).pb = s.pb.set idx ⟨r, g, b, w⟩) ∨
    ((commandBody i s).pb = zeroBuffer s.inst.numPixels ∧
      (i = .start ∨ i = .clear ∨ i = .terminate)) := by
  rcases commandBody_cases i s with
    ⟨-, heq⟩ | ⟨rfl, -, ib, n, heq | heq⟩ | ⟨idx, r, g, b, w, rfl, hl, ⟨hi, heq⟩ | ⟨-, heq⟩⟩ |
    ⟨rfl, -, heq⟩ | ⟨-, -, heq⟩ | ⟨rfl, -, heq⟩ | ⟨-, -, heq⟩
  all_goals rw [heq] at h ⊢
  · exact absurd rfl h
  · exact .inr ⟨rfl, by simp⟩
  · obtain ⟨_, _, _, heq', -⟩ := fatal_cases .config { s with inbox := ib, draws := n }
    exact .inr ⟨by rw [heq'], by simp⟩
  · exact .inl ⟨idx, r, g, b, w, rfl, hl, hi, rfl⟩
  · exact absurd rfl h
  · exact .inr ⟨rfl, by simp⟩
  · exact absurd rfl h
  · exact .inr ⟨rfl, by simp⟩
  · exact absurd rfl h

/-- Settles O44: of the moves of a step only the service, the four writing commands and a failed transfer
touch the buffer. -/
theorem pixelBufferWriters : Obligations.PixelBufferWriters := by
  unfold Obligations.PixelBufferWriters
  intro s t h hpb
  rcases step_next_cases h with ⟨hdue, rfl⟩ | ⟨-, -, rfl⟩ | ⟨e, rest, -, hi, htake⟩
  · exact .inr ⟨rfl, .inl hdue⟩
  · exact absurd rfl hpb
  rcases takeEvent_next htake with ⟨x, i, rfl, hx, -, rfl⟩ | ⟨-, -, -, -, -, rfl⟩ | ⟨-, rfl⟩ |
    ⟨x, -, -, -, -, rfl⟩ | ⟨x, r, rfl, -, -, -, rfl⟩
  · rcases commandBody_pb hpb with ⟨idx, r, g, b, w, rfl, hl, hidx, hset⟩ | ⟨hzero, hwriter⟩
    · exact .inl ⟨x, rest, idx, r, g, b, w, hi, hx, hl, hidx, hset⟩
    · exact .inr ⟨hzero, .inr (.inl ⟨x, rest, i, hi, hx, hwriter⟩)⟩
  · exact absurd rfl hpb
  · rw [raiseRequest_eq] at hpb
    exact absurd rfl hpb
  · exact absurd rfl hpb
  · by_cases hc : r = .complete
    · subst hc
      obtain ⟨-, -, -, -, hsame⟩ := afterTransfer_complete x { s with inbox := rest }
      exact absurd hsame hpb
    · obtain ⟨_, _, _, heq, -⟩ := afterTransfer_failed_cases hc x { s with inbox := rest }
      exact .inr ⟨by rw [heq]; rfl, .inr (.inr ⟨r, rest, hi, hc⟩)⟩

/-! ### The lifecycle -/

theorem fatal_lc (c : FatalCause) (s : State) : (fatal c s).lc = .fault ∧ (fatal c s).fcause = c := by
  obtain ⟨_, _, _, heq, -⟩ := fatal_cases c s
  rw [heq]
  exact ⟨rfl, rfl⟩

/-- Of the commands only START changes the lifecycle state at once. -/
theorem commandBody_lc (i : Instr) (s : State) :
    (commandBody i s).lc = s.lc ∨
    (i = .start ∧ s.lc = .uninitialized ∧ ((commandBody i s).lc = .active ∨
      (commandBody i s).lc = .fault ∧ (commandBody i s).fcause = .config)) := by
  rcases commandBody_cases i s with
    ⟨-, heq⟩ | ⟨hi, hu, ib, n, heq | heq⟩ | ⟨_, _, _, _, _, -, -, ⟨-, heq⟩ | ⟨-, heq⟩⟩ | ⟨-, -, heq⟩ |
    ⟨-, -, heq⟩ | ⟨-, -, heq⟩ | ⟨-, -, heq⟩
  all_goals rw [heq]
  · exact .inl rfl
  · exact .inr ⟨hi, hu, .inl rfl⟩
  · exact .inr ⟨hi, hu, .inr (fatal_lc .config _)⟩
  all_goals exact .inl rfl

/-- Settles O40: a START and the ends of a transfer are the only moves that write the lifecycle state, and a
transfer is in flight in Active only. -/
theorem lifecycleTransitions : Obligations.LifecycleTransitions := by
  unfold Obligations.LifecycleTransitions
  intro s t h hstep
  rcases step_next_cases hstep with ⟨-, rfl⟩ | ⟨-, -, rfl⟩ | ⟨e, rest, -, hi, htake⟩
  · exact .inl rfl
  · exact .inl rfl
  rcases takeEvent_next htake with ⟨x, i, rfl, hx, -, rfl⟩ | ⟨-, -, -, -, -, rfl⟩ | ⟨-, rfl⟩ |
    ⟨x, -, -, -, -, rfl⟩ | ⟨x, r, rfl, -, hx, -, rfl⟩
  · rcases commandBody_lc i (issue { s with inbox := rest }) with hsame | ⟨rfl, hu, hend⟩
    · exact .inl hsame
    · exact .inr (.inl ⟨hu, hend, x, rest, hi, hx⟩)
  · exact .inl rfl
  · exact .inl (by rw [raiseRequest_eq])
  · exact .inl rfl
  · have hl : s.lc = .active := h.active_of_xfer hx
    by_cases hc : r = .complete
    · subst hc
      cases hk : x.kind with
      | refresh => exact .inl (by rw [afterTransfer_refresh_complete hk])
      | final =>
        refine .inr (.inr (.inl ⟨hl, ?_, x, rest, hx, hk, hi⟩))
        rw [afterTransfer_final_complete hk]
    · refine .inr (.inr (.inr ⟨hl, ?_, r, rest, by simp [show s.xfer = _ from hx], hc, hi⟩))
      rw [afterTransfer_of_failed hc]
      exact (fatal_lc _ _).1

/-- Settles O48: the invariant gives the bus and the buffer, and the move into Closed is the complete end of
the final transfer, whose frame is dark. -/
theorem shutdownReleasesBus : Obligations.ShutdownReleasesBus := by
  unfold Obligations.ShutdownReleasesBus
  intro s t h hstep hl hleft
  have ht : Invariant t := invariantKept s t h hstep
  have hopen : t.opened = false := Bool.eq_false_iff.mpr fun ho => hleft (ht.openIffActive.mp ho)
  rcases lifecycleTransitions s t h hstep with hsame | ⟨hu, -⟩ |
    ⟨-, hclosed, x, rest, hx, hk, hi⟩ | ⟨-, hfault, -⟩
  · exact absurd (hsame.trans hl) hleft
  · exact absurd (hu.symm.trans hl) (by decide)
  · refine ⟨hopen, ht.terminalDark (.inl hclosed), fun _ => ⟨s.txlog, ?_⟩⟩
    obtain rfl := next_unique (step_xferDone (h.busy_of_xfer hx) hx hi rfl) hstep
    rw [afterTransfer_final_complete hk, h.finalFrame hx hk]
    rfl
  · exact ⟨hopen, ht.terminalDark (.inr hfault), fun hc => absurd (hfault.symm.trans hc) (by decide)⟩

/-! ### Outside Active: reset, Closed and Fault -/

/-- Outside Active a command that is no START only returns its status, and so does a START after
Uninitialized (rules R206, R222). -/
theorem exec_outside_active {s : State} (hf : CommandFree s) (hl : s.lc ≠ .active) {i : Instr}
    (hi : i = .start → s.lc ≠ .uninitialized) :
    exec i s = .next { s with host := .returned (if i = .terminate then .ok else .rejState) } := by
  by_cases hterm : i = .terminate
  · rw [if_pos hterm, hterm, exec_terminate_of_not_active hf hl]
  · rw [if_neg hterm, exec_rejected hf]
    cases i <;> simp_all [accepts]

/-- Settles O39: the reset values are written in `State.reset`, and its block is free and Uninitialized. -/
theorem resetValues : Obligations.ResetValues := by
  unfold Obligations.ResetValues
  refine ⟨Memory.wf_reset, rfl, rfl, rfl, rfl, rfl, rfl, rfl, rfl, rfl, fun i hi => ?commands⟩
  case commands => exact exec_outside_active ⟨rfl, rfl⟩ (by decide) fun h => absurd h hi

/-- In Closed and in Fault a step changes nothing but what the host sees and what is listed: nothing is in
flight, requests are disabled, and commands only return. -/
theorem step_of_terminal {s t : State} (h : Invariant s) (hl : s.lc = .closed ∨ s.lc = .fault)
    (hstep : step s = .next t) : ∃ host inbox, t = { s with host := host, inbox := inbox } := by
  have hna : s.lc ≠ .active := by rcases hl with hl | hl <;> simp [hl]
  have hnu : s.lc ≠ .uninitialized := by rcases hl with hl | hl <;> simp [hl]
  have hb : s.busy = false := h.busy_of_not_active hna
  have hen : s.termEn = false := Bool.eq_false_iff.mpr fun hen => hna (h.enabledActive hen)
  rcases step_next_cases hstep with ⟨hdue, -⟩ | ⟨-, -, rfl⟩ | ⟨e, rest, -, -, htake⟩
  · simp [serviceDue_of_not_active hna] at hdue
  · exact ⟨_, _, rfl⟩
  rcases takeEvent_next htake with ⟨-, i, -, -, hf, rfl⟩ | ⟨-, -, -, -, -, rfl⟩ | ⟨-, rfl⟩ |
    ⟨x, -, hbusy, -⟩ | ⟨x, r, -, hbusy, -⟩
  · have heq := next_unique (exec_outside_active hf hna fun _ => hnu) (exec_of_free hf i)
    exact ⟨_, _, heq⟩
  · exact ⟨_, _, rfl⟩
  · exact ⟨_, _, raiseRequest_of_disabled (s := { s with inbox := rest }) hen⟩
  · simp [hb] at hbusy
  · simp [hb] at hbusy

/-- Settles O41: a step in Fault sets only the host's status and the list, and no command is accepted. -/
theorem faultSticky : Obligations.FaultSticky := by
  unfold Obligations.FaultSticky
  intro s h hl
  have hna : s.lc ≠ .active := by simp [hl]
  refine ⟨fun t hstep => ?step, fun i => ?command⟩
  case step =>
    obtain ⟨host, inbox, rfl⟩ := step_of_terminal h (.inr hl) hstep
    exact ⟨hl, rfl, Bool.eq_false_iff.mpr fun ho => hna (h.openIffActive.mp ho),
      h.terminalDark (.inr hl), rfl⟩
  case command =>
    exact exec_outside_active (h.commandFree_of_not_active hna) hna fun _ => by simp [hl]

/-- Settles O42: a step in Closed sets only the host's status and the list, and so does a run. -/
theorem closedForEver : Obligations.ClosedForEver := by
  unfold Obligations.ClosedForEver
  intro s h hl
  have hna : s.lc ≠ .active := by simp [hl]
  refine ⟨h.terminalDark (.inl hl), fun i hi => ?command, fun n t hrun => ?run⟩
  case command =>
    rw [exec_outside_active (h.commandFree_of_not_active hna) hna fun _ => by simp [hl], if_neg hi]
  case run =>
    have hkeep : ∀ u v : State, (Invariant u ∧ ∃ host inbox, u = { s with host := host, inbox := inbox }) →
        step u = .next v → Invariant v ∧ ∃ host inbox, v = { s with host := host, inbox := inbox } := by
      rintro u v ⟨hu, host, inbox, rfl⟩ hstep
      obtain ⟨host', inbox', hv⟩ := step_of_terminal hu (.inl hl) hstep
      exact ⟨invariantKept _ v hu hstep, host', inbox', hv⟩
    obtain ⟨-, host, inbox, rfl⟩ := runSteps_induction hkeep n s t ⟨h, _, _, rfl⟩ hrun
    exact ⟨hl, rfl, h.busy_of_not_active hna, rfl⟩

end Sys2Proof.Machine

/-! PROOFS. With `CH = 3` the W fields influence nothing (rule R26). An operation on a state either writes the
whole buffer without reading it, and then gives one state with or without the W fields, or it leaves them to
the end, where clearing them a second time changes nothing. -/

namespace Sys2Proof.Machine

/-! ### The state with its W fields cleared -/

theorem withoutW_idempotent (s : State) : withoutW (withoutW s) = withoutW s := by
  simp [withoutW]

/-- The frame does not carry W (rules R26, R150). -/
theorem assembledFrame_withoutW {s : State} (hc : s.inst.channels = .three) :
    assembledFrame (withoutW s) = assembledFrame s := by
  have hpixel (p : Pixel) : pixelBytes .three { p with W := 0 } = pixelBytes .three p := rfl
  simp only [assembledFrame, assemble, payload, withoutW, hc, List.flatMap_map, hpixel]

/-- The fatal sequence zeroes the buffer before anything reads it (rule R231). -/
theorem fatal_withoutW (c : FatalCause) (s : State) : fatal c (withoutW s) = fatal c s := rfl

theorem drawOpenAnswer_withoutW (s : State) :
    drawOpenAnswer (withoutW s) = ((drawOpenAnswer s).1, withoutW (drawOpenAnswer s).2) := by
  unfold drawOpenAnswer
  cases h : s.inbox with
  | nil => simp [withoutW, countDraw, h]
  | cons e rest => cases e <;> simp [withoutW, countDraw, h]

theorem raiseRequest_withoutW (s : State) : raiseRequest (withoutW s) = withoutW (raiseRequest s) := by
  rw [raiseRequest_eq, raiseRequest_eq]
  rfl

/-- Writing one pixel: the fields that the write does not reach are cleared before it or after it. -/
theorem withoutW_writePixel (i : Nat) (p : Pixel) (s : State) :
    withoutW (writePixel i p (withoutW s)) = withoutW (writePixel i p s) := by
  simp [withoutW, writePixel, List.map_set, Function.comp_def]

/-! ### Commands -/

/-- A command that the lifecycle state accepts does not tell the two states apart. -/
theorem withoutW_requireState {lc : Lifecycle} {body : State → State} {s : State}
    (h : withoutW (body (withoutW s)) = withoutW (body s)) :
    withoutW (requireState lc body (withoutW s)) = withoutW (requireState lc body s) := by
  by_cases hl : s.lc = lc
  · rwa [requireState_of_eq hl, requireState_of_eq (s := withoutW s) hl]
  · rw [requireState_of_ne hl, requireState_of_ne (s := withoutW s) hl]
    exact withoutW_idempotent (answerHost .rejState s)

theorem withoutW_commandBody {s : State} (hc : s.inst.channels = .three) (i : Instr) :
    withoutW (commandBody i (withoutW s)) = withoutW (commandBody i s) := by
  cases i with
  | start =>
    apply withoutW_requireState
    obtain ⟨a, ib, n, hdraw⟩ := drawOpenAnswer_cases s
    rw [drawOpenAnswer_withoutW, hdraw]
    cases a <;> rfl
  | setPixel idx r g b w =>
    apply withoutW_requireState
    by_cases hi : indexInRange s.inst idx = true
    · rw [if_pos hi, if_pos (by exact hi)]
      exact congrArg (answerHost .ok) (withoutW_writePixel idx (pixelOf r g b w) s)
    · rw [if_neg hi, if_neg (by exact hi)]
      exact withoutW_idempotent (answerHost .rejIndex s)
  | clear => exact withoutW_requireState rfl
  | refresh =>
    rw [commandBody, refreshBody]
    apply withoutW_requireState
    rw [assembledFrame_withoutW hc]
    exact withoutW_idempotent (transmit .refresh (assembledFrame s) s)
  | terminate =>
    by_cases hl : s.lc = .active
    · rw [commandBody, terminateBody_of_active hl, terminateBody_of_active (s := withoutW s) hl]
      rfl
    · rw [commandBody, terminateBody_of_not_active hl, terminateBody_of_not_active (s := withoutW s) hl]
      exact withoutW_idempotent (answerHost .ok s)

/-! ### Outcomes -/

/-- An outcome with the W fields of its next state cleared. -/
def clearW (o : Host.Outcome State Fault Refusal) : Host.Outcome State Fault Refusal :=
  andThen o fun t => .next (withoutW t)

theorem clearW_next_congr {t u : State} (h : withoutW t = withoutW u) :
    clearW (.next t) = clearW (.next u) :=
  congrArg Host.Outcome.next h

theorem clearW_whenFree {body : State → State} {s : State}
    (h : withoutW (body (withoutW (issue s))) = withoutW (body (issue s))) :
    clearW (whenFree (withoutW s) body) = clearW (whenFree s body) := by
  by_cases hb : s.busy = true
  · rw [whenFree, whenFree, if_pos hb, if_pos (by exact hb)]
  by_cases hd : serviceDue s = true
  · rw [whenFree, whenFree, if_neg hb, if_neg (by exact hb), if_pos hd, if_pos (by exact hd)]
  · rw [whenFree, whenFree, if_neg hb, if_neg (by exact hb), if_neg hd, if_neg (by exact hd)]
    exact clearW_next_congr h

/-- A transfer's end: the frame stands in XFER and not in the buffer (rule R35). -/
theorem withoutW_afterTransfer (x : Transfer) (e : BusEnd) (s : State) :
    withoutW (afterTransfer x e (withoutW s)) = withoutW (afterTransfer x e s) := by
  by_cases hc : e = .complete
  · subst hc
    cases hk : x.kind with
    | refresh =>
      rw [afterTransfer_refresh_complete hk, afterTransfer_refresh_complete hk]
      exact withoutW_idempotent { s with txlog := _, busy := false, xfer := none, host := _ }
    | final =>
      rw [afterTransfer_final_complete hk, afterTransfer_final_complete hk]
      exact withoutW_idempotent
        { s with txlog := _, busy := false, xfer := none, opened := false, lc := .closed, host := _ }
  · rw [afterTransfer_of_failed hc, afterTransfer_of_failed hc]
    exact congrArg withoutW (fatal_withoutW _ (logRecord _ s))

theorem clearW_takeEvent {s : State} (hc : s.inst.channels = .three) (e : Event) :
    clearW (takeEvent e (withoutW s)) = clearW (takeEvent e s) := by
  cases e with
  | command x =>
    simp only [takeEvent, presentWord]
    cases decode x with
    | ok i =>
      simp only [exec_eq_whenFree]
      exact clearW_whenFree (withoutW_commandBody (s := issue s) hc i)
    | error err => exact clearW_whenFree (withoutW_idempotent (answerHost .rejIllegal (issue s)))
  | termReq =>
    apply clearW_next_congr
    rw [raiseRequest_withoutW, withoutW_idempotent]
  | shiftByte =>
    have hflight : inFlight (withoutW s) = inFlight s := rfl
    have hinst : (withoutW s).inst = s.inst := rfl
    simp only [takeEvent, shiftOut, hflight, hinst]
    cases inFlight s with
    | none => rfl
    | some x =>
      by_cases hpos : x.pos < s.inst.frameLength
      · simp only [if_pos hpos]
        exact clearW_next_congr (withoutW_idempotent { s with xfer := some { x with pos := x.pos + 1 } })
      · simp only [if_neg hpos]
  | xferDone r =>
    have hflight : inFlight (withoutW s) = inFlight s := rfl
    have hinst : (withoutW s).inst = s.inst := rfl
    simp only [takeEvent, xferDone, hflight, hinst]
    cases inFlight s with
    | none => rfl
    | some x =>
      by_cases hr : possibleEnd s.inst.frameLength x.pos r = true
      · simp only [if_pos hr]
        exact clearW_next_congr (withoutW_afterTransfer x r s)
      · simp only [if_neg hr]
  | openAnswer _ => rfl
  | cleanupChoice _ => rfl
  | cleanupEnd _ => rfl

/-- Settles O47: the service of a request overwrites the buffer, an idle step keeps it, and no listed move
reads its W fields. -/
theorem unusedWUnobservable : Obligations.UnusedWUnobservable := by
  unfold Obligations.UnusedWUnobservable
  intro s hc
  have hstep : clearW (step (withoutW s)) = clearW (step s) := by
    by_cases hd : serviceDue s = true
    · rw [step_of_due hd, step_of_due (s := withoutW s) hd]
      rfl
    rw [Bool.not_eq_true] at hd
    cases hi : s.inbox with
    | nil =>
      rw [step_of_idle hd hi, step_of_idle (s := withoutW s) hd hi]
      exact clearW_next_congr (withoutW_idempotent s)
    | cons e rest =>
      rw [step_of_event hd hi, step_of_event (s := withoutW s) hd hi]
      exact clearW_takeEvent (s := { s with inbox := rest }) hc e
  exact hstep.symm

end Sys2Proof.Machine
